-- ==== Sys2Proof/Word.lean ====
section
/-! DEFINITION. The two widths of the block (00_scope.md R7): bytes and 16-bit words. -/

namespace Sys2Proof

/-- A byte register, a memory cell or an immediate byte (R7). -/
abbrev Byte := BitVec 8

/-- A register pair, SP, PC or a memory address (R7: "All addresses are 16-bit"). -/
abbrev Word := BitVec 16

end Sys2Proof
end

