-- ==== Sys2Proof/Config.lean ====
section
/-! DEFINITION. The named parameters of 00_scope.md R8 as plain data, and the values this hardware takes. The
environment supplies them at reset (R353); `INIT` is `State.ofInit`'s argument (Machine/State.lean). -/

namespace Sys2Proof

/-- `ZP_EXT`: how the zero-page offset is extended (R8, R87). -/
inductive ZpExt where
  | sext
  | zext
  deriving DecidableEq, Repr

/-- What a memory policy returns for an admitted read of a byte (R8: "what a read returns"). PRESUMED shape, as data (log 5). -/
inductive ReadValue where
  /-- the byte of the cell itself, as under FLAT (R51) -/
  | cell
  /-- a byte that no write changes -/
  | fixed (v : Byte)
  /-- the byte of another cell: the window's first address reads the cell `base`, the next one the cell after it -/
  | mirror (base : Word)
  /-- a value that no rule gives: `Config.freeRead source` -/
  | free (source : Nat)
  deriving DecidableEq, Repr

/-- FREE VALUE (log 5): what source number `source` of a policy returns at an address when memory holds these cells. It has no body, so
no proof can tell its values. -/
opaque Config.freeRead (source : Nat) (a : Word) (cells : List Host.Cell) : Byte

/-- A range of addresses, first to last inclusive and not wrapping, at which a memory collaborator refuses reads,
writes or both, or returns something of its own for a read. PRESUMED shape of a policy, as data (log 5). -/
structure Window where
  first         : Word
  last          : Word
  refusesReads  : Bool
  refusesWrites : Bool
  /-- what an admitted read of an address in the window returns -/
  reads         : ReadValue
  deriving DecidableEq, Repr

/-- `MEMMAP`: which addresses admit a read or a write, and what a read returns (R8). `flat` admits every access and a read returns the
cell (R51); `guarded` refuses what its windows refuse (R312) and returns what the first window that covers the address says. DESIGN
CHOICE: a policy is a list of windows (log 5). -/
inductive MemMap where
  | flat
  | guarded (windows : List Window)
  deriving DecidableEq, Repr

/-- The parameters of R8. -/
structure Config where
  /-- `TICK_BIAS`: extra ticks per executed instruction -/
  tickBias   : Fin 2
  /-- `ADMIT_TIER2`: whether the eight tier-2 opcodes are decoded -/
  admitTier2 : Bool
  /-- `ZP_EXT` -/
  zpExt      : ZpExt
  /-- `MEMMAP` -/
  memmap     : MemMap
  deriving DecidableEq, Repr

/-- The values this hardware takes (R8; 92_eei_decisions.md D1, D2, D3, D6). -/
def Config.hardware : Config where
  tickBias   := 0
  admitTier2 := true
  zpExt      := .sext
  memmap     := .flat

end Sys2Proof
end

