-- ==== Sys2Proof/Syntax.lean ====
section
/-! DEFINITION. The instructions of the block as syntax: one constructor per mnemonic of spec/opcode_table.json
(30_encoding.md R91), with the immediate it carries. The 156 UNIMPLEMENTED rows are one constructor that carries
the opcode byte (45_unimplemented.md R290, R301). -/

namespace Sys2Proof

/-- The byte registers an instruction can name: the identifier set of R22 (F is not in it, R23). -/
inductive Reg8 where
  | a | b | c | d | e | h | l
  deriving DecidableEq, Repr

/-- The register pairs of R24, each "two 8-bit cells composed big-endian as a pair". -/
inductive Pair where
  | af | bc | de | hl
  deriving DecidableEq, Repr

/-- The instructions, named destination first as in R99; `AtX` is the memory cell `(X)`. -/
inductive Instr where
  -- 8-bit loads 0x40 to 0x7F (41_load_byte_reg.md)
  /-- LD B,B, opcode 0x40 (R144) -/
  | ldBB
  /-- LD B,C, opcode 0x41 (R145) -/
  | ldBC
  /-- LD B,D, opcode 0x42 (R146) -/
  | ldBD
  /-- LD B,E, opcode 0x43 (R147) -/
  | ldBE
  /-- LD B,H, opcode 0x44 (R148) -/
  | ldBH
  /-- LD B,L, opcode 0x45 (R149) -/
  | ldBL
  /-- LD B,(HL), opcode 0x46 (R150) -/
  | ldBAtHl
  /-- LD B,A, opcode 0x47 (R151) -/
  | ldBA
  /-- LD C,B, opcode 0x48 (R152) -/
  | ldCB
  /-- LD C,C, opcode 0x49 (R153) -/
  | ldCC
  /-- LD C,D, opcode 0x4A (R154) -/
  | ldCD
  /-- LD C,E, opcode 0x4B (R155) -/
  | ldCE
  /-- LD C,H, opcode 0x4C (R156) -/
  | ldCH
  /-- LD C,L, opcode 0x4D (R157) -/
  | ldCL
  /-- LD C,(HL), opcode 0x4E (R158) -/
  | ldCAtHl
  /-- LD C,A, opcode 0x4F (R159) -/
  | ldCA
  /-- LD D,B, opcode 0x50 (R160) -/
  | ldDB
  /-- LD D,C, opcode 0x51 (R161) -/
  | ldDC
  /-- LD D,D, opcode 0x52 (R162) -/
  | ldDD
  /-- LD D,E, opcode 0x53 (R163) -/
  | ldDE
  /-- LD D,H, opcode 0x54 (R164) -/
  | ldDH
  /-- LD D,L, opcode 0x55 (R165) -/
  | ldDL
  /-- LD D,(HL), opcode 0x56 (R166) -/
  | ldDAtHl
  /-- LD D,A, opcode 0x57 (R167) -/
  | ldDA
  /-- LD E,B, opcode 0x58 (R168) -/
  | ldEB
  /-- LD E,C, opcode 0x59 (R169) -/
  | ldEC
  /-- LD E,D, opcode 0x5A (R170) -/
  | ldED
  /-- LD E,E, opcode 0x5B (R171) -/
  | ldEE
  /-- LD E,H, opcode 0x5C (R172) -/
  | ldEH
  /-- LD E,L, opcode 0x5D (R173) -/
  | ldEL
  /-- LD E,(HL), opcode 0x5E (R174) -/
  | ldEAtHl
  /-- LD E,A, opcode 0x5F (R175) -/
  | ldEA
  /-- LD H,B, opcode 0x60 (R176) -/
  | ldHB
  /-- LD H,C, opcode 0x61 (R177) -/
  | ldHC
  /-- LD H,D, opcode 0x62 (R178) -/
  | ldHD
  /-- LD H,E, opcode 0x63 (R179) -/
  | ldHE
  /-- LD H,H, opcode 0x64 (R180) -/
  | ldHH
  /-- LD H,L, opcode 0x65 (R181) -/
  | ldHL
  /-- LD H,(HL), opcode 0x66 (R182) -/
  | ldHAtHl
  /-- LD H,A, opcode 0x67 (R183) -/
  | ldHA
  /-- LD L,B, opcode 0x68 (R184) -/
  | ldLB
  /-- LD L,C, opcode 0x69 (R185) -/
  | ldLC
  /-- LD L,D, opcode 0x6A (R186) -/
  | ldLD
  /-- LD L,E, opcode 0x6B (R187) -/
  | ldLE
  /-- LD L,H, opcode 0x6C (R188) -/
  | ldLH
  /-- LD L,L, opcode 0x6D (R189) -/
  | ldLL
  /-- LD L,(HL), opcode 0x6E (R190) -/
  | ldLAtHl
  /-- LD L,A, opcode 0x6F (R191) -/
  | ldLA
  /-- LD (HL),B, opcode 0x70 (R192) -/
  | ldAtHlB
  /-- LD (HL),C, opcode 0x71 (R193) -/
  | ldAtHlC
  /-- LD (HL),D, opcode 0x72 (R194) -/
  | ldAtHlD
  /-- LD (HL),E, opcode 0x73 (R195) -/
  | ldAtHlE
  /-- LD (HL),H, opcode 0x74 (R196) -/
  | ldAtHlH
  /-- LD (HL),L, opcode 0x75 (R197) -/
  | ldAtHlL
  /-- LD (HL),A, opcode 0x77 (R198) -/
  | ldAtHlA
  /-- LD A,B, opcode 0x78 (R199) -/
  | ldAB
  /-- LD A,C, opcode 0x79 (R200) -/
  | ldAC
  /-- LD A,D, opcode 0x7A (R201) -/
  | ldAD
  /-- LD A,E, opcode 0x7B (R202) -/
  | ldAE
  /-- LD A,H, opcode 0x7C (R203) -/
  | ldAH
  /-- LD A,L, opcode 0x7D (R204) -/
  | ldAL
  /-- LD A,(HL), opcode 0x7E (R205) -/
  | ldAAtHl
  /-- LD A,A, opcode 0x7F (R206) -/
  | ldAA
  -- other 8-bit loads (42_load_byte_other.md)
  /-- LD B,d8, opcode 0x06 (R212) -/
  | ldBD8 (d8 : Byte)
  /-- LD C,d8, opcode 0x0E (R213) -/
  | ldCD8 (d8 : Byte)
  /-- LD D,d8, opcode 0x16 (R214) -/
  | ldDD8 (d8 : Byte)
  /-- LD E,d8, opcode 0x1E (R215) -/
  | ldED8 (d8 : Byte)
  /-- LD H,d8, opcode 0x26 (R216) -/
  | ldHD8 (d8 : Byte)
  /-- LD L,d8, opcode 0x2E, tier 2 (R217) -/
  | ldLD8 (d8 : Byte)
  /-- LD (HL),d8, opcode 0x36 (R218) -/
  | ldAtHlD8 (d8 : Byte)
  /-- LD A,d8, opcode 0x3E (R219) -/
  | ldAD8 (d8 : Byte)
  /-- LD (BC),A, opcode 0x02 (R220) -/
  | ldAtBcA
  /-- LD (DE),A, opcode 0x12, tier 2 (R221) -/
  | ldAtDeA
  /-- LD A,(BC), opcode 0x0A, tier 2 (R222) -/
  | ldAAtBc
  /-- LD A,(DE), opcode 0x1A, tier 2 (R223) -/
  | ldAAtDe
  /-- LD (HL+),A, opcode 0x22 (R224) -/
  | ldAtHlIncA
  /-- LD A,(HL+), opcode 0x2A (R225) -/
  | ldAAtHlInc
  /-- LD (HL-),A, opcode 0x32 (R226) -/
  | ldAtHlDecA
  /-- LD A,(HL-), opcode 0x3A (R227) -/
  | ldAAtHlDec
  /-- LDH (a8),A, opcode 0xE0 (R229) -/
  | ldhAtA8A (a8 : Byte)
  /-- LDH A,(a8), opcode 0xF0 (R230) -/
  | ldhAAtA8 (a8 : Byte)
  /-- LD (C),A, opcode 0xE2 (R231) -/
  | ldAtCA
  /-- LD A,(C), opcode 0xF2 (R232) -/
  | ldAAtC
  /-- LD (a16),A, opcode 0xEA (R233) -/
  | ldAtA16A (a16 : Word)
  /-- LD A,(a16), opcode 0xFA (R234) -/
  | ldAAtA16 (a16 : Word)
  -- 16-bit loads (43_load_word.md)
  /-- LD BC,d16, opcode 0x01 (R251) -/
  | ldBcD16 (d16 : Word)
  /-- LD DE,d16, opcode 0x11, tier 2 (R252) -/
  | ldDeD16 (d16 : Word)
  /-- LD HL,d16, opcode 0x21, tier 2 (R253) -/
  | ldHlD16 (d16 : Word)
  /-- LD SP,d16, opcode 0x31, tier 2 (R254) -/
  | ldSpD16 (d16 : Word)
  /-- LD (a16),SP, opcode 0x08, tier 2 (R255) -/
  | ldAtA16Sp (a16 : Word)
  /-- LD HL,SP+r8, opcode 0xF8 (R256) -/
  | ldHlSpR8 (r8 : Byte)
  /-- LD SP,HL, opcode 0xF9 (R257) -/
  | ldSpHl
  -- PUSH and POP (44_push_pop.md)
  /-- PUSH BC, opcode 0xC5 (R272) -/
  | pushBc
  /-- PUSH DE, opcode 0xD5 (R273) -/
  | pushDe
  /-- PUSH HL, opcode 0xE5 (R274) -/
  | pushHl
  /-- PUSH AF, opcode 0xF5 (R275) -/
  | pushAf
  /-- POP BC, opcode 0xC1 (R276) -/
  | popBc
  /-- POP DE, opcode 0xD1 (R277) -/
  | popDe
  /-- POP HL, opcode 0xE1 (R278) -/
  | popHl
  /-- POP AF, opcode 0xF1 (R279) -/
  | popAf
  -- the bytes with no handler (45_unimplemented.md)
  /-- an opcode byte outside the decodable set (R290, R291, R300) -/
  | unimplemented (op : Byte)
  deriving DecidableEq, Repr

/-- LD r,r' for two registers: the 49 register-to-register rows of R94, destination first. -/
def Instr.regMove : Reg8 → Reg8 → Instr
  | .b, .b => .ldBB
  | .b, .c => .ldBC
  | .b, .d => .ldBD
  | .b, .e => .ldBE
  | .b, .h => .ldBH
  | .b, .l => .ldBL
  | .b, .a => .ldBA
  | .c, .b => .ldCB
  | .c, .c => .ldCC
  | .c, .d => .ldCD
  | .c, .e => .ldCE
  | .c, .h => .ldCH
  | .c, .l => .ldCL
  | .c, .a => .ldCA
  | .d, .b => .ldDB
  | .d, .c => .ldDC
  | .d, .d => .ldDD
  | .d, .e => .ldDE
  | .d, .h => .ldDH
  | .d, .l => .ldDL
  | .d, .a => .ldDA
  | .e, .b => .ldEB
  | .e, .c => .ldEC
  | .e, .d => .ldED
  | .e, .e => .ldEE
  | .e, .h => .ldEH
  | .e, .l => .ldEL
  | .e, .a => .ldEA
  | .h, .b => .ldHB
  | .h, .c => .ldHC
  | .h, .d => .ldHD
  | .h, .e => .ldHE
  | .h, .h => .ldHH
  | .h, .l => .ldHL
  | .h, .a => .ldHA
  | .l, .b => .ldLB
  | .l, .c => .ldLC
  | .l, .d => .ldLD
  | .l, .e => .ldLE
  | .l, .h => .ldLH
  | .l, .l => .ldLL
  | .l, .a => .ldLA
  | .a, .b => .ldAB
  | .a, .c => .ldAC
  | .a, .d => .ldAD
  | .a, .e => .ldAE
  | .a, .h => .ldAH
  | .a, .l => .ldAL
  | .a, .a => .ldAA

/-- LD r,(HL): the seven rows with source code 6 (R142). -/
def Instr.loadAtHl : Reg8 → Instr
  | .b => .ldBAtHl
  | .c => .ldCAtHl
  | .d => .ldDAtHl
  | .e => .ldEAtHl
  | .h => .ldHAtHl
  | .l => .ldLAtHl
  | .a => .ldAAtHl

/-- LD (HL),r: the seven rows with destination code 6 (R142). -/
def Instr.storeAtHl : Reg8 → Instr
  | .b => .ldAtHlB
  | .c => .ldAtHlC
  | .d => .ldAtHlD
  | .e => .ldAtHlE
  | .h => .ldAtHlH
  | .l => .ldAtHlL
  | .a => .ldAtHlA

/-- LD r,d8 for a register (R211). -/
def Instr.loadImm8 : Reg8 → Byte → Instr
  | .b, d8 => .ldBD8 d8
  | .c, d8 => .ldCD8 d8
  | .d, d8 => .ldDD8 d8
  | .e, d8 => .ldED8 d8
  | .h, d8 => .ldHD8 d8
  | .l, d8 => .ldLD8 d8
  | .a, d8 => .ldAD8 d8

/-- PUSH rr (R270). -/
def Instr.push : Pair → Instr
  | .af => .pushAf
  | .bc => .pushBc
  | .de => .pushDe
  | .hl => .pushHl

/-- POP rr (R271). -/
def Instr.pop : Pair → Instr
  | .af => .popAf
  | .bc => .popBc
  | .de => .popDe
  | .hl => .popHl

end Sys2Proof
end

