-- ==== Sys2Proof/WellFormed.lean ====
section
/-! DEFINITION. Which opcode bytes are decodable (30_encoding.md R91, R92) and which terms of `Instr` the decoder can
give: an `unimplemented` term must carry a byte outside the decodable set, and a tier-2 term exists only where
`ADMIT_TIER2` is true (45_unimplemented.md R291, R300). Every immediate value is admitted (R88 to R90). -/

namespace Sys2Proof

/-- Tier-1 opcodes below 0x40 (R91). -/
def tier1Low : List Byte :=
  [0x01, 0x02, 0x06, 0x0E, 0x16, 0x1E, 0x22, 0x26, 0x2A, 0x32, 0x36, 0x3A, 0x3E]

/-- The block 0x40 to 0x7F without 0x76 (R94, R96). -/
def tier1Block : List Byte :=
  [0x40, 0x41, 0x42, 0x43, 0x44, 0x45, 0x46, 0x47] ++
  [0x48, 0x49, 0x4A, 0x4B, 0x4C, 0x4D, 0x4E, 0x4F] ++
  [0x50, 0x51, 0x52, 0x53, 0x54, 0x55, 0x56, 0x57] ++
  [0x58, 0x59, 0x5A, 0x5B, 0x5C, 0x5D, 0x5E, 0x5F] ++
  [0x60, 0x61, 0x62, 0x63, 0x64, 0x65, 0x66, 0x67] ++
  [0x68, 0x69, 0x6A, 0x6B, 0x6C, 0x6D, 0x6E, 0x6F] ++
  [0x70, 0x71, 0x72, 0x73, 0x74, 0x75, 0x77] ++
  [0x78, 0x79, 0x7A, 0x7B, 0x7C, 0x7D, 0x7E, 0x7F]

/-- Tier-1 opcodes from 0xC0 up (R91). -/
def tier1High : List Byte :=
  [0xC1, 0xC5, 0xD1, 0xD5, 0xE0, 0xE1, 0xE2, 0xE5, 0xEA, 0xF0, 0xF1, 0xF2, 0xF5, 0xF8, 0xF9, 0xFA]

/-- The eight tier-2 opcodes (R92). -/
def tier2Opcodes : List Byte :=
  [0x08, 0x0A, 0x11, 0x12, 0x1A, 0x21, 0x2E, 0x31]

/-- Whether a byte is decodable: tier 1, or tier 2 when `ADMIT_TIER2` is true (R16, R91, R92). -/
def decodable (admitTier2 : Bool) (op : Byte) : Bool :=
  tier1Low.contains op || tier1Block.contains op || tier1High.contains op || (admitTier2 && tier2Opcodes.contains op)

/-- Whether the decoder can give this term under the parameter `ADMIT_TIER2`. -/
def Instr.wellFormed (admitTier2 : Bool) : Instr → Bool
  | .ldAtA16Sp _ | .ldAAtBc | .ldDeD16 _ | .ldAtDeA | .ldAAtDe | .ldHlD16 _ | .ldLD8 _ | .ldSpD16 _ =>
    admitTier2
  | .unimplemented op => !decodable admitTier2 op
  | .ldBB | .ldBC | .ldBD | .ldBE | .ldBH | .ldBL | .ldBAtHl | .ldBA
  | .ldCB | .ldCC | .ldCD | .ldCE | .ldCH | .ldCL | .ldCAtHl | .ldCA
  | .ldDB | .ldDC | .ldDD | .ldDE | .ldDH | .ldDL | .ldDAtHl | .ldDA
  | .ldEB | .ldEC | .ldED | .ldEE | .ldEH | .ldEL | .ldEAtHl | .ldEA
  | .ldHB | .ldHC | .ldHD | .ldHE | .ldHH | .ldHL | .ldHAtHl | .ldHA
  | .ldLB | .ldLC | .ldLD | .ldLE | .ldLH | .ldLL | .ldLAtHl | .ldLA
  | .ldAtHlB | .ldAtHlC | .ldAtHlD | .ldAtHlE | .ldAtHlH | .ldAtHlL | .ldAtHlA | .ldAB
  | .ldAC | .ldAD | .ldAE | .ldAH | .ldAL | .ldAAtHl | .ldAA | .ldBD8 _
  | .ldCD8 _ | .ldDD8 _ | .ldED8 _ | .ldHD8 _ | .ldAtHlD8 _ | .ldAD8 _ | .ldAtBcA | .ldAtHlIncA
  | .ldAAtHlInc | .ldAtHlDecA | .ldAAtHlDec | .ldhAtA8A _ | .ldhAAtA8 _ | .ldAtCA | .ldAAtC | .ldAtA16A _
  | .ldAAtA16 _ | .ldBcD16 _ | .ldHlSpR8 _ | .ldSpHl | .pushBc | .pushDe | .pushHl | .pushAf
  | .popBc | .popDe | .popHl | .popAf =>
    true

end Sys2Proof
end

