-- ==== Sys2Proof/Decode.lean ====
section
/-! DEFINITION. The decoder (30_encoding.md): the opcode map of R91 as rows, the total decoder of R98 over the opcode
byte and the two bytes after it, the same over any list of bytes with its rejections by name, the encoder, and the
numbering of spec/opcode_table.json. -/

namespace Sys2Proof

/-- `h : l`, the word with `h` in the high bits (R9). -/
def wordOf (hi lo : Byte) : Word := hi ++ lo

/-- `hi8 w = w[15:8]` (R9). -/
def hi8 (w : Word) : Byte := w.extractLsb' 8 8

/-- `lo8 w = w[7:0]` (R9). -/
def lo8 (w : Word) : Byte := w.extractLsb' 0 8

/-- The three formats (R81, R82, R83): no immediate, an immediate byte, an immediate word. -/
inductive Format where
  | o    (i : Instr)
  | oi8  (f : Byte → Instr)
  | oi16 (f : Word → Instr)

/-- Length in bytes of a format (R80 to R83). -/
def Format.length : Format → Nat
  | .o _    => 1
  | .oi8 _  => 2
  | .oi16 _ => 3

/-- The instruction of a format, given the two bytes after the opcode, low byte first (R82, R83, R89). -/
def Format.assemble : Format → Byte → Byte → Instr
  | .o i,    _,  _  => i
  | .oi8 f,  b1, _  => f b1
  | .oi16 f, b1, b2 => f (wordOf b2 b1)

/-- One row of the opcode map of R91. -/
structure OpcodeRow where
  opcode : Byte
  tier2  : Bool
  format : Format

/-- R91, opcodes 0x00 to 0x3F. -/
def rowsLow : List OpcodeRow := [
  ⟨0x01, false, .oi16 .ldBcD16⟩,
  ⟨0x02, false, .o .ldAtBcA⟩,
  ⟨0x06, false, .oi8 .ldBD8⟩,
  ⟨0x08, true, .oi16 .ldAtA16Sp⟩,
  ⟨0x0A, true, .o .ldAAtBc⟩,
  ⟨0x0E, false, .oi8 .ldCD8⟩,
  ⟨0x11, true, .oi16 .ldDeD16⟩,
  ⟨0x12, true, .o .ldAtDeA⟩,
  ⟨0x16, false, .oi8 .ldDD8⟩,
  ⟨0x1A, true, .o .ldAAtDe⟩,
  ⟨0x1E, false, .oi8 .ldED8⟩,
  ⟨0x21, true, .oi16 .ldHlD16⟩,
  ⟨0x22, false, .o .ldAtHlIncA⟩,
  ⟨0x26, false, .oi8 .ldHD8⟩,
  ⟨0x2A, false, .o .ldAAtHlInc⟩,
  ⟨0x2E, true, .oi8 .ldLD8⟩,
  ⟨0x31, true, .oi16 .ldSpD16⟩,
  ⟨0x32, false, .o .ldAtHlDecA⟩,
  ⟨0x36, false, .oi8 .ldAtHlD8⟩,
  ⟨0x3A, false, .o .ldAAtHlDec⟩,
  ⟨0x3E, false, .oi8 .ldAD8⟩]

/-- R94, opcodes 0x40 to 0x47. -/
def rows40 : List OpcodeRow := [
  ⟨0x40, false, .o .ldBB⟩,
  ⟨0x41, false, .o .ldBC⟩,
  ⟨0x42, false, .o .ldBD⟩,
  ⟨0x43, false, .o .ldBE⟩,
  ⟨0x44, false, .o .ldBH⟩,
  ⟨0x45, false, .o .ldBL⟩,
  ⟨0x46, false, .o .ldBAtHl⟩,
  ⟨0x47, false, .o .ldBA⟩]

/-- R94, opcodes 0x48 to 0x4F. -/
def rows48 : List OpcodeRow := [
  ⟨0x48, false, .o .ldCB⟩,
  ⟨0x49, false, .o .ldCC⟩,
  ⟨0x4A, false, .o .ldCD⟩,
  ⟨0x4B, false, .o .ldCE⟩,
  ⟨0x4C, false, .o .ldCH⟩,
  ⟨0x4D, false, .o .ldCL⟩,
  ⟨0x4E, false, .o .ldCAtHl⟩,
  ⟨0x4F, false, .o .ldCA⟩]

/-- R94, opcodes 0x50 to 0x57. -/
def rows50 : List OpcodeRow := [
  ⟨0x50, false, .o .ldDB⟩,
  ⟨0x51, false, .o .ldDC⟩,
  ⟨0x52, false, .o .ldDD⟩,
  ⟨0x53, false, .o .ldDE⟩,
  ⟨0x54, false, .o .ldDH⟩,
  ⟨0x55, false, .o .ldDL⟩,
  ⟨0x56, false, .o .ldDAtHl⟩,
  ⟨0x57, false, .o .ldDA⟩]

/-- R94, opcodes 0x58 to 0x5F. -/
def rows58 : List OpcodeRow := [
  ⟨0x58, false, .o .ldEB⟩,
  ⟨0x59, false, .o .ldEC⟩,
  ⟨0x5A, false, .o .ldED⟩,
  ⟨0x5B, false, .o .ldEE⟩,
  ⟨0x5C, false, .o .ldEH⟩,
  ⟨0x5D, false, .o .ldEL⟩,
  ⟨0x5E, false, .o .ldEAtHl⟩,
  ⟨0x5F, false, .o .ldEA⟩]

/-- R94, opcodes 0x60 to 0x67. -/
def rows60 : List OpcodeRow := [
  ⟨0x60, false, .o .ldHB⟩,
  ⟨0x61, false, .o .ldHC⟩,
  ⟨0x62, false, .o .ldHD⟩,
  ⟨0x63, false, .o .ldHE⟩,
  ⟨0x64, false, .o .ldHH⟩,
  ⟨0x65, false, .o .ldHL⟩,
  ⟨0x66, false, .o .ldHAtHl⟩,
  ⟨0x67, false, .o .ldHA⟩]

/-- R94, opcodes 0x68 to 0x6F. -/
def rows68 : List OpcodeRow := [
  ⟨0x68, false, .o .ldLB⟩,
  ⟨0x69, false, .o .ldLC⟩,
  ⟨0x6A, false, .o .ldLD⟩,
  ⟨0x6B, false, .o .ldLE⟩,
  ⟨0x6C, false, .o .ldLH⟩,
  ⟨0x6D, false, .o .ldLL⟩,
  ⟨0x6E, false, .o .ldLAtHl⟩,
  ⟨0x6F, false, .o .ldLA⟩]

/-- R94, opcodes 0x70 to 0x77. -/
def rows70 : List OpcodeRow := [
  ⟨0x70, false, .o .ldAtHlB⟩,
  ⟨0x71, false, .o .ldAtHlC⟩,
  ⟨0x72, false, .o .ldAtHlD⟩,
  ⟨0x73, false, .o .ldAtHlE⟩,
  ⟨0x74, false, .o .ldAtHlH⟩,
  ⟨0x75, false, .o .ldAtHlL⟩,
  ⟨0x77, false, .o .ldAtHlA⟩]

/-- R94, opcodes 0x78 to 0x7F. -/
def rows78 : List OpcodeRow := [
  ⟨0x78, false, .o .ldAB⟩,
  ⟨0x79, false, .o .ldAC⟩,
  ⟨0x7A, false, .o .ldAD⟩,
  ⟨0x7B, false, .o .ldAE⟩,
  ⟨0x7C, false, .o .ldAH⟩,
  ⟨0x7D, false, .o .ldAL⟩,
  ⟨0x7E, false, .o .ldAAtHl⟩,
  ⟨0x7F, false, .o .ldAA⟩]

/-- R91, opcodes 0xC0 to 0xFF. -/
def rowsHigh : List OpcodeRow := [
  ⟨0xC1, false, .o .popBc⟩,
  ⟨0xC5, false, .o .pushBc⟩,
  ⟨0xD1, false, .o .popDe⟩,
  ⟨0xD5, false, .o .pushDe⟩,
  ⟨0xE0, false, .oi8 .ldhAtA8A⟩,
  ⟨0xE1, false, .o .popHl⟩,
  ⟨0xE2, false, .o .ldAtCA⟩,
  ⟨0xE5, false, .o .pushHl⟩,
  ⟨0xEA, false, .oi16 .ldAtA16A⟩,
  ⟨0xF0, false, .oi8 .ldhAAtA8⟩,
  ⟨0xF1, false, .o .popAf⟩,
  ⟨0xF2, false, .o .ldAAtC⟩,
  ⟨0xF5, false, .o .pushAf⟩,
  ⟨0xF8, false, .oi8 .ldHlSpR8⟩,
  ⟨0xF9, false, .o .ldSpHl⟩,
  ⟨0xFA, false, .oi16 .ldAAtA16⟩]

/-- The opcode map of R91: 100 rows. -/
def opcodeRows : List OpcodeRow :=
  rowsLow ++ rows40 ++ rows48 ++ rows50 ++ rows58 ++ rows60 ++ rows68 ++ rows70 ++ rows78 ++ rowsHigh

/-- The row of an opcode byte, if it is decodable under `ADMIT_TIER2` (R91, R92). -/
def findRow (admitTier2 : Bool) (op : Byte) : Option OpcodeRow :=
  opcodeRows.find? (fun r => r.opcode == op && (admitTier2 || !r.tier2))

/-- How many bytes the decoder takes for an opcode byte: R93, and one for a byte with no handler (R97, R290: "no
further byte is read"). -/
def instrLength (admitTier2 : Bool) (op : Byte) : Nat :=
  match findRow admitTier2 op with
  | some r => r.format.length
  | none   => 1

/-- `decode_next` as "a pure function of the byte at the current program-counter address and the bytes immediately
following it" (R67), total over all opcode bytes (R98). Bytes beyond the instruction's length are not looked at. -/
def decodeBytes (admitTier2 : Bool) (op b1 b2 : Byte) : Instr :=
  match findRow admitTier2 op with
  | some r => r.format.assemble b1 b2
  | none   => .unimplemented op

/-- Why a list of bytes is no instruction. The machine's own fetch always has the bytes it needs (log 21). -/
inductive DecodeReject where
  | noOpcode
  | truncated (op : Byte)
  deriving DecidableEq, Repr

/-- Decode the instruction at the front of a list of bytes and give the bytes after it (R97). -/
def decode (admitTier2 : Bool) : List Byte → Except DecodeReject (Instr × List Byte)
  | []         => .error .noOpcode
  | op :: rest =>
    let tail := instrLength admitTier2 op - 1
    if rest.length < tail then .error (.truncated op)
    else .ok (decodeBytes admitTier2 op (rest.getD 0 0) (rest.getD 1 0), rest.drop tail)

/-- The bytes of an instruction, first byte first, from the Encoding lines of the per-opcode rules (41 to 44); an
unimplemented byte stands for itself (R290). -/
def encode : Instr → List Byte
  | .ldBB => [0x40]
  | .ldBC => [0x41]
  | .ldBD => [0x42]
  | .ldBE => [0x43]
  | .ldBH => [0x44]
  | .ldBL => [0x45]
  | .ldBAtHl => [0x46]
  | .ldBA => [0x47]
  | .ldCB => [0x48]
  | .ldCC => [0x49]
  | .ldCD => [0x4A]
  | .ldCE => [0x4B]
  | .ldCH => [0x4C]
  | .ldCL => [0x4D]
  | .ldCAtHl => [0x4E]
  | .ldCA => [0x4F]
  | .ldDB => [0x50]
  | .ldDC => [0x51]
  | .ldDD => [0x52]
  | .ldDE => [0x53]
  | .ldDH => [0x54]
  | .ldDL => [0x55]
  | .ldDAtHl => [0x56]
  | .ldDA => [0x57]
  | .ldEB => [0x58]
  | .ldEC => [0x59]
  | .ldED => [0x5A]
  | .ldEE => [0x5B]
  | .ldEH => [0x5C]
  | .ldEL => [0x5D]
  | .ldEAtHl => [0x5E]
  | .ldEA => [0x5F]
  | .ldHB => [0x60]
  | .ldHC => [0x61]
  | .ldHD => [0x62]
  | .ldHE => [0x63]
  | .ldHH => [0x64]
  | .ldHL => [0x65]
  | .ldHAtHl => [0x66]
  | .ldHA => [0x67]
  | .ldLB => [0x68]
  | .ldLC => [0x69]
  | .ldLD => [0x6A]
  | .ldLE => [0x6B]
  | .ldLH => [0x6C]
  | .ldLL => [0x6D]
  | .ldLAtHl => [0x6E]
  | .ldLA => [0x6F]
  | .ldAtHlB => [0x70]
  | .ldAtHlC => [0x71]
  | .ldAtHlD => [0x72]
  | .ldAtHlE => [0x73]
  | .ldAtHlH => [0x74]
  | .ldAtHlL => [0x75]
  | .ldAtHlA => [0x77]
  | .ldAB => [0x78]
  | .ldAC => [0x79]
  | .ldAD => [0x7A]
  | .ldAE => [0x7B]
  | .ldAH => [0x7C]
  | .ldAL => [0x7D]
  | .ldAAtHl => [0x7E]
  | .ldAA => [0x7F]
  | .ldBD8 d8 => [0x06, d8]
  | .ldCD8 d8 => [0x0E, d8]
  | .ldDD8 d8 => [0x16, d8]
  | .ldED8 d8 => [0x1E, d8]
  | .ldHD8 d8 => [0x26, d8]
  | .ldLD8 d8 => [0x2E, d8]
  | .ldAtHlD8 d8 => [0x36, d8]
  | .ldAD8 d8 => [0x3E, d8]
  | .ldAtBcA => [0x02]
  | .ldAtDeA => [0x12]
  | .ldAAtBc => [0x0A]
  | .ldAAtDe => [0x1A]
  | .ldAtHlIncA => [0x22]
  | .ldAAtHlInc => [0x2A]
  | .ldAtHlDecA => [0x32]
  | .ldAAtHlDec => [0x3A]
  | .ldhAtA8A a8 => [0xE0, a8]
  | .ldhAAtA8 a8 => [0xF0, a8]
  | .ldAtCA => [0xE2]
  | .ldAAtC => [0xF2]
  | .ldAtA16A a16 => [0xEA, lo8 a16, hi8 a16]
  | .ldAAtA16 a16 => [0xFA, lo8 a16, hi8 a16]
  | .ldBcD16 d16 => [0x01, lo8 d16, hi8 d16]
  | .ldDeD16 d16 => [0x11, lo8 d16, hi8 d16]
  | .ldHlD16 d16 => [0x21, lo8 d16, hi8 d16]
  | .ldSpD16 d16 => [0x31, lo8 d16, hi8 d16]
  | .ldAtA16Sp a16 => [0x08, lo8 a16, hi8 a16]
  | .ldHlSpR8 r8 => [0xF8, r8]
  | .ldSpHl => [0xF9]
  | .pushBc => [0xC5]
  | .pushDe => [0xD5]
  | .pushHl => [0xE5]
  | .pushAf => [0xF5]
  | .popBc => [0xC1]
  | .popDe => [0xD1]
  | .popHl => [0xE1]
  | .popAf => [0xF1]
  | .unimplemented op => [op]

/-- The three bytes from the first up of an instruction numbered as spec/opcode_table.json numbers it: bit 0 is the
least significant bit of the opcode byte, and every bit above `nbits` is 0. -/
def tableBytes (nbits w : Nat) : List Byte :=
  let v := w % 2 ^ nbits
  [BitVec.ofNat 8 v, BitVec.ofNat 8 (v / 2 ^ 8), BitVec.ofNat 8 (v / 2 ^ 16)]

/-- What the decoder reads from an instruction numbered as the table numbers it, with this hardware's parameters. -/
def decodeTableWord (nbits w : Nat) : Option Instr :=
  match decode Config.hardware.admitTier2 (tableBytes nbits w) with
  | .ok (i, _) => some i
  | .error _   => none

end Sys2Proof
end

