-- ==== Sys2Proof/Machine/State.lean ====
section
/-! DEFINITION. The state of 10_state.md R21 as plain data, the reasons a step can stop, and reset (70_reset_and_hazards.md
R350). -/

namespace Sys2Proof.Machine

/-- Memory: (address, byte) pairs in the canonical form of `Memory.wf` (Machine/Ops.lean). -/
abbrev Memory := List Host.Cell

/-- The kind of a refused access (R312). -/
inductive AccessKind where
  | fetch
  | read
  | write
  deriving DecidableEq, Repr

/-- The two error conditions of R310 with the values they record. -/
inductive FaultRecord where
  /-- UnimplementedOpcode(op, at): the opcode byte and its address (R311) -/
  | unimplementedOpcode (op : Byte) (loc : Word)
  /-- InvalidAddress(addr, kind): the first refused byte and the access (R312) -/
  | invalidAddress (addr : Word) (kind : AccessKind)
  deriving DecidableEq, Repr

/-- The architectural state (R21) and the launch-time parameters (R8, log 4). -/
structure State where
  a     : Byte
  f     : Byte
  b     : Byte
  c     : Byte
  d     : Byte
  e     : Byte
  h     : Byte
  l     : Byte
  /-- stack pointer (R25) -/
  sp    : Word
  /-- program counter (R26) -/
  pc    : Word
  /-- the 65536 memory bytes (R29) -/
  mem   : Memory
  /-- the tick counter (R36) -/
  clk   : Nat
  /-- the fault latch (R37) -/
  fault : Option FaultRecord
  /-- the parameters of R8, supplied at reset and never written by a step (R353, log 4) -/
  cfg   : Config
  deriving DecidableEq, Repr

/-- Why a step gives no next state. -/
inductive Fault where
  /-- Raised by `step` alone, when the latch already holds the record `r`: no step is enabled (R37, R131). Safe: the
  spec's core does not go on either (log 6). -/
  | halted (r : FaultRecord)
  deriving DecidableEq, Repr

/-- Why an instruction has no meaning. -/
inductive Refusal where
  /-- Raised by `exec` for an instruction without a meaning yet: none at present. Safe: nothing is claimed of it. -/
  | notModelled (mnemonic : String)
  deriving DecidableEq, Repr

/-- What a meaning answers. -/
abbrev Result := Host.Outcome State Fault Refusal

/-- `INIT`: the register and memory contents the environment supplies at reset (R39). -/
structure Init where
  a   : Byte
  f   : Byte
  b   : Byte
  c   : Byte
  d   : Byte
  e   : Byte
  h   : Byte
  l   : Byte
  sp  : Word
  pc  : Word
  mem : Memory
  deriving DecidableEq, Repr

/-- Reset (R350): every register, SP, PC and memory byte from `INIT`, `clk` 0, `fault` none; the environment also
supplies the parameters (R353). It is the only way out of a latched fault (R316). -/
def State.ofInit (cfg : Config) (init : Init) : State where
  a := init.a
  f := init.f
  b := init.b
  c := init.c
  d := init.d
  e := init.e
  h := init.h
  l := init.l
  sp := init.sp
  pc := init.pc
  mem := init.mem
  clk := 0
  fault := none
  cfg := cfg

/-- DESIGN CHOICE (unsafe, log 1, log 2): the one `INIT` the fixed name `State.reset` uses. The spec leaves every component open
(R39, R351); statements about reset quantify over `Init` instead. -/
def Init.named : Init where
  a := 0
  f := 0
  b := 0
  c := 0
  d := 0
  e := 0
  h := 0
  l := 0
  sp := 0
  pc := 0
  mem := []

/-- Right after reset, with this hardware's parameters and the named `INIT` (log 1). -/
def State.reset : State := State.ofInit Config.hardware Init.named

end Sys2Proof.Machine
end

