-- ==== Sys2Proof/Machine/Flags.lean ====
section
/-! DEFINITION. The block has no flags (10_state.md R27): no instruction computes one. F is 8 bits of plain storage, the
low half of AF, reached only through these two accessors by PUSH AF and POP AF (R23, log 18). -/

namespace Sys2Proof.Machine

/-- F as PUSH AF reads it: all 8 bits (R27, R275). -/
def State.fByte (s : State) : Byte := s.f

/-- F as POP AF writes it: all 8 bits, none forced (R27, R279). -/
def State.setFByte (v : Byte) (s : State) : State := { s with f := v }

end Sys2Proof.Machine
end

