-- ==== Sys2Proof/Machine/Ops.lean ====
section
/-! DEFINITION. The named operations over registers, memory, the memory policy, the fault latch and the counters: 10_state.md
R22 to R37, 20_memory.md R50 to R61, 60_exceptions.md R311 to R315, 40_instruction_protocol.md R117, R118. -/

namespace Sys2Proof.Machine

/-! Registers -/

/-- `x[r]` for a byte register (R11, R22). -/
def State.reg8 (s : State) : Reg8 → Byte
  | .a => s.a
  | .b => s.b
  | .c => s.c
  | .d => s.d
  | .e => s.e
  | .h => s.h
  | .l => s.l

/-- `x[r] <- v` for a byte register (R11, R22). -/
def State.setReg8 (r : Reg8) (v : Byte) (s : State) : State :=
  match r with
  | .a => { s with a := v }
  | .b => { s with b := v }
  | .c => { s with c := v }
  | .d => { s with d := v }
  | .e => { s with e := v }
  | .h => { s with h := v }
  | .l => { s with l := v }

/-- `x[rr]` for a pair: the first-named register is the high byte (R24, log 16). -/
def State.pair (s : State) : Pair → Word
  | .af => wordOf s.a s.fByte
  | .bc => wordOf s.b s.c
  | .de => wordOf s.d s.e
  | .hl => wordOf s.h s.l

/-- `x[rr] <- w` for a pair: both halves at once (R24, R34). -/
def State.setPair (p : Pair) (w : Word) (s : State) : State :=
  match p with
  | .af => (s.setReg8 .a (hi8 w)).setFByte (lo8 w)
  | .bc => (s.setReg8 .b (hi8 w)).setReg8 .c (lo8 w)
  | .de => (s.setReg8 .d (hi8 w)).setReg8 .e (lo8 w)
  | .hl => (s.setReg8 .h (hi8 w)).setReg8 .l (lo8 w)

/-- `x[SP] <- w` (R25). -/
def State.setSp (w : Word) (s : State) : State := { s with sp := w }

/-- `pc <- t` (R11). -/
def State.setPc (t : Word) (s : State) : State := { s with pc := t }

/-! Memory -/

/-- What a cell that no entry lists reads as. DESIGN CHOICE (unsafe, log 2): the spec leaves `INIT` memory open; any contents can be
listed. -/
def Memory.unlisted : Byte := 0

/-- The byte at an address. -/
def Memory.read : Memory → Nat → Byte
  | [], _ => Memory.unlisted
  | (a, v) :: rest, k => if k = a then v else Memory.read rest k

/-- Put a byte at the front of a memory whose entries lie above it, unless it is what an unlisted cell reads as. -/
def Memory.push (k : Nat) (v : Byte) (m : Memory) : Memory :=
  if v = Memory.unlisted then m else (k, v) :: m

/-- Replace the byte at an address, keeping the canonical form. -/
def Memory.write : Memory → Nat → Byte → Memory
  | [], k, v => Memory.push k v []
  | (a, w) :: rest, k, v =>
    if k < a then Memory.push k v ((a, w) :: rest)
    else if k = a then Memory.push k v rest
    else (a, w) :: Memory.write rest k v

/-- The canonical form from an address up: addresses strictly rising and below 65536, no entry equal to what an unlisted cell
reads as. -/
def Memory.wfFrom : Nat → Memory → Bool
  | _, [] => true
  | low, (a, v) :: rest => decide (low ≤ a) && decide (a < 65536) && v != Memory.unlisted && Memory.wfFrom (a + 1) rest

/-- The canonical form of a memory: equal contents are equal lists. -/
def Memory.wf (m : Memory) : Bool := Memory.wfFrom 0 m

/-- `mem[a]`: the byte of a cell (R11, R29). -/
def State.cell (s : State) (a : Word) : Byte := Memory.read s.mem a.toNat

/-! The memory policy (`MEMMAP`) -/

/-- Whether a window covers an address. -/
def windowCovers (w : Window) (a : Word) : Bool :=
  decide (w.first.toNat ≤ a.toNat) && decide (a.toNat ≤ w.last.toNat)

/-- Whether the policy admits a read of a byte, fetches included (R51, R312). -/
def admitsRead (m : MemMap) (a : Word) : Bool :=
  match m with
  | .flat => true
  | .guarded ws => !ws.any (fun w => w.refusesReads && windowCovers w a)

/-- Whether the policy admits a write of a byte (R51, R312). -/
def admitsWrite (m : MemMap) (a : Word) : Bool :=
  match m with
  | .flat => true
  | .guarded ws => !ws.any (fun w => w.refusesWrites && windowCovers w a)

/-- What the windows of a policy return for a read: the first window that covers the address decides, and where none does the read
returns the cell (log 5). -/
def windowsRead : List Window → Word → Memory → Byte
  | [], a, m => Memory.read m a.toNat
  | w :: ws, a, m =>
    if windowCovers w a then
      match w.reads with
      | .cell     => Memory.read m a.toNat
      | .fixed v  => v
      | .mirror b => Memory.read m (b + (a - w.first)).toNat
      | .free k   => Config.freeRead k a m
    else windowsRead ws a m

/-- What an admitted read of a byte returns under the policy (R8, R51, log 5). -/
def readsAs (p : MemMap) (a : Word) (m : Memory) : Byte :=
  match p with
  | .flat       => Memory.read m a.toNat
  | .guarded ws => windowsRead ws a m

/-! Memory accesses -/

/-- `MemRead(a, 1)` (R52): what the memory policy returns, which is `mem[a]` under FLAT (R51). -/
def State.memRead8 (s : State) (a : Word) : Byte := readsAs s.cfg.memmap a s.mem

/-- `MemWrite(a, 1, v)` (R53). -/
def State.memWrite8 (a : Word) (v : Byte) (s : State) : State :=
  { s with mem := Memory.write s.mem a.toNat v }

/-- `MemRead(a, 2)`: low byte at `a`, high byte at `a + 1` modulo 2^16 (R54, R58). -/
def State.memRead16 (s : State) (a : Word) : Word := wordOf (s.memRead8 (a + 1)) (s.memRead8 a)

/-- `MemWrite(a, 2, w)`: low byte to `a`, high byte to `a + 1` modulo 2^16, one update (R55, R58). -/
def State.memWrite16 (a : Word) (w : Word) (s : State) : State :=
  (s.memWrite8 a (lo8 w)).memWrite8 (a + 1) (hi8 w)

/-- Bytes at consecutive addresses from `a` up, wrapping: how the environment places a program in `INIT` (R352, log 3). -/
def State.storeBytes : Word → List Byte → State → State
  | _, [], s => s
  | a, v :: rest, s => State.storeBytes (a + 1) rest (s.memWrite8 a v)

/-- The first refused address of a list of accesses in order (R315: "the first failure is the one reported"). -/
def firstRefused (admits : Word → Bool) (cells : List Word) : Option Word :=
  cells.find? (fun a => !admits a)

/-! Exceptions -/

/-- Fault entry (R313): the latch records the condition and nothing else changes. No register, PC, memory byte or `clk` is
saved, written or advanced; there is no handler. There is no return from it (R316): only `State.ofInit` clears the latch. -/
def State.raise (r : FaultRecord) (s : State) : State := { s with fault := some r }

/-- What a step answers while the latch is set: no step is enabled (R37, R131, log 6). -/
def haltedStep (r : FaultRecord) (_s : State) : Result := .fault (.halted r)

/-! Counters -/

/-- The program-counter advance, modulo 2^16 (R117). -/
def State.advancePc (length : Nat) (s : State) : State := s.setPc (s.pc + BitVec.ofNat 16 length)

/-- `tick(n)`: `clk <- clk + n + TICK_BIAS` (R118). -/
def State.tick (n : Nat) (s : State) : State := { s with clk := s.clk + n + s.cfg.tickBias.val }

/-! Decoding the next instruction -/

/-- The cells `decode_next` reads, in order: the opcode byte and the immediate bytes of its length (R61, R62). -/
def fetchCells (s : State) : List Word :=
  (List.range (instrLength s.cfg.admitTier2 (s.memRead8 s.pc))).map (fun k => s.pc + BitVec.ofNat 16 k)

/-- `decode_next` (R112): InvalidAddress at the first cell the policy refuses to fetch (R315 cases 1 and 3), or the instruction the
bytes at PC decode to; a byte with no handler is the `unimplemented` term, whose meaning latches the condition (R311, log 7). -/
def decodeNext (s : State) : Except FaultRecord Instr :=
  match firstRefused (admitsRead s.cfg.memmap) (fetchCells s) with
  | some a => .error (.invalidAddress a .fetch)
  | none =>
    .ok (decodeBytes s.cfg.admitTier2 (s.memRead8 s.pc) (s.memRead8 (s.pc + 1)) (s.memRead8 (s.pc + 2)))

end Sys2Proof.Machine
end

