-- ==== Sys2Proof/Machine/Operands.lean ====
section
/-! DEFINITION. The locations of 00_scope.md R12 with their reads and writes (10_state.md R30 to R33), the cells they touch,
and the operand arithmetic of 30_encoding.md R87 and R90. -/

namespace Sys2Proof.Machine

/-- `sext_16(b)` (R10). -/
def sext16 (b : Byte) : Word := b.signExtend 16

/-- `zext_16(b)` (R10). -/
def zext16 (b : Byte) : Word := b.setWidth 16

/-- `ZP(off)`: the zero-page address, "its signed-extended value ... added to `0xFF00`" under sext (R87, R228, log 12). -/
def zeroPage (ext : ZpExt) (off : Byte) : Word :=
  match ext with
  | .sext => 0xFF00 + sext16 off
  | .zext => 0xFF00 + zext16 off

/-- The address of the cell `deref(address_handle, offset)` gives, and of the word `deref_word` gives: base plus a signed offset, the
sum formed in integers and reduced modulo 2^16 (R17, R50). The immediate cells and the zero page are instances (Laws/Operands.lean). -/
def derefAddress (base : Word) (offset : Int) : Word := BitVec.ofInt 16 (base.toNat + offset)

/-- A byte location (R12): a register or a memory cell; `imm` is a captured immediate byte, read-only (log 8). -/
inductive Loc8 where
  | reg (r : Reg8)
  | mem (a : Word)
  | imm (v : Byte)
  deriving DecidableEq, Repr

/-- A word location (R12): a pair, SP, PC, a memory word, or the read-only computed word `Val16`, which also stands for a
captured immediate word (log 8). -/
inductive Loc16 where
  | pair (p : Pair)
  | sp
  | pc
  | mem (a : Word)
  | val (w : Word)
  deriving DecidableEq, Repr

/-- `Read8` (R30). -/
def read8 (loc : Loc8) (s : State) : Byte :=
  match loc with
  | .reg r => s.reg8 r
  | .mem a => s.memRead8 a
  | .imm v => v

/-- `Write8` (R31). An immediate is never a destination (log 19). -/
def write8 (loc : Loc8) (v : Byte) (s : State) : State :=
  match loc with
  | .reg r => s.setReg8 r v
  | .mem a => s.memWrite8 a v
  | .imm _ => s

/-- `Read16` (R32). -/
def read16 (loc : Loc16) (s : State) : Word :=
  match loc with
  | .pair p => s.pair p
  | .sp     => s.sp
  | .pc     => s.pc
  | .mem a  => s.memRead16 a
  | .val w  => w

/-- `Write16` (R33). `Val16` is never a destination (log 19). -/
def write16 (loc : Loc16) (w : Word) (s : State) : State :=
  match loc with
  | .pair p => s.setPair p w
  | .sp     => s.setSp w
  | .pc     => s.setPc w
  | .mem a  => s.memWrite16 a w
  | .val _  => s

/-- The memory cells of a byte location. -/
def Loc8.cells : Loc8 → List Word
  | .reg _ => []
  | .mem a => [a]
  | .imm _ => []

/-- The memory cells of a word location, low byte first (R62, log 9). -/
def Loc16.cells : Loc16 → List Word
  | .pair _ => []
  | .sp     => []
  | .pc     => []
  | .mem a  => [a, a + 1]
  | .val _  => []

end Sys2Proof.Machine
end

