-- ==== Sys2Proof/Machine/Protocol.lean ====
section
/-! DEFINITION. The instruction protocol (40_instruction_protocol.md): the decoded Instruction of R111 with its captured
locations, the four variants of R120 to R123, the post-effects of R116, and `execute` with its four phases. -/

namespace Sys2Proof.Machine

/-- The primary effect: one of the four variants with its captured locations (R111, R113). -/
inductive Effect where
  | loadByte (source destination : Loc8)
  | loadWord (source destination : Loc16)
  | push (source : Loc16)
  | pop (destination : Loc16)
  deriving DecidableEq, Repr

/-- The post-effects that occur (R116). -/
inductive PostEffect where
  | incHl
  | decHl
  deriving DecidableEq, Repr

/-- The decoded Instruction (R111): "a single immutable value constructed in one step from (effect, cycles, length,
post-effects)". -/
structure Instruction where
  effect : Effect
  cycles : Nat
  length : Nat
  post   : List PostEffect
  deriving DecidableEq, Repr

/-- Step 1 of execute (R114): the primary effect, each source read fully before the destination is written (R113). -/
def perform (e : Effect) (s : State) : State :=
  match e with
  | .loadByte src dst => write8 dst (read8 src s) s
  | .loadWord src dst => write16 dst (read16 src s) s
  | .push src =>
    let w := read16 src s
    let top := s.sp - 2
    (s.setSp top).memWrite16 top w
  | .pop dst =>
    let top := s.sp
    let w := s.memRead16 top
    (write16 dst w s).setSp (top + 2)

/-- One post-effect (R116): the pair HL plus or minus 1 modulo 2^16, as a unit. -/
def runPost (p : PostEffect) (s : State) : State :=
  match p with
  | .incHl => s.setPair .hl (s.pair .hl + 1)
  | .decHl => s.setPair .hl (s.pair .hl - 1)

/-- Step 2 of execute (R115): every post-effect, in order. -/
def runPosts : List PostEffect → State → State
  | [], s => s
  | p :: ps, s => runPosts ps (runPost p s)

/-- The memory cells the primary effect reads, in order (R62, R318). -/
def Effect.readCells (e : Effect) (s : State) : List Word :=
  match e with
  | .loadByte src _ => src.cells
  | .loadWord src _ => src.cells
  | .push src       => src.cells
  | .pop _          => [s.sp, s.sp + 1]

/-- The memory cells the primary effect writes, in order (R62, R318). -/
def Effect.writeCells (e : Effect) (s : State) : List Word :=
  match e with
  | .loadByte _ dst => dst.cells
  | .loadWord _ dst => dst.cells
  | .push _         => [s.sp - 2, s.sp - 1]
  | .pop dst        => dst.cells

/-- The data access the memory policy refuses, if any: reads first, then writes (R315 cases 4 and 5), all checked before the first
write (R314). -/
def refusedData (e : Effect) (s : State) : Option FaultRecord :=
  match firstRefused (admitsRead s.cfg.memmap) (e.readCells s) with
  | some a => some (.invalidAddress a .read)
  | none =>
    match firstRefused (admitsWrite s.cfg.memmap) (e.writeCells s) with
    | some a => some (.invalidAddress a .write)
    | none   => none

/-- The four phases of execute in order: primary effect, post-effects, PC advance, ticks (R110, R114 to R118). -/
def complete (n : Instruction) (s : State) : State :=
  ((runPosts n.post (perform n.effect s)).advancePc n.length).tick n.cycles

/-- `execute` on a decoded Instruction: the four phases, or the fault entry alone if a data access is refused (R313, R314). -/
def execute (n : Instruction) (s : State) : Result :=
  match refusedData n.effect s with
  | some r => .next (s.raise r)
  | none   => .next (complete n s)

end Sys2Proof.Machine
end

