-- ==== Sys2Proof/Machine/LoadByteOther.lean ====
section
/-! DEFINITION. The 22 8-bit loads outside 0x40 to 0x7F (42_load_byte_other.md), one meaning each. Addresses are
captured from the state at the start of the step (R113); the immediate is the instruction's own operand (log 8). The
values of the tier-2 rows are PRESUMED, the spec's own mark (R92, log 11). -/

namespace Sys2Proof.Machine

/-- LD B,d8, 0x06 (R212). -/
def execLdBD8 (d8 : Byte) (s : State) : Result :=
  execute ⟨.loadByte (.imm d8) (.reg .b), 8, 2, []⟩ s

/-- LD C,d8, 0x0E (R213). -/
def execLdCD8 (d8 : Byte) (s : State) : Result :=
  execute ⟨.loadByte (.imm d8) (.reg .c), 8, 2, []⟩ s

/-- LD D,d8, 0x16 (R214). -/
def execLdDD8 (d8 : Byte) (s : State) : Result :=
  execute ⟨.loadByte (.imm d8) (.reg .d), 8, 2, []⟩ s

/-- LD E,d8, 0x1E (R215). -/
def execLdED8 (d8 : Byte) (s : State) : Result :=
  execute ⟨.loadByte (.imm d8) (.reg .e), 8, 2, []⟩ s

/-- LD H,d8, 0x26 (R216). -/
def execLdHD8 (d8 : Byte) (s : State) : Result :=
  execute ⟨.loadByte (.imm d8) (.reg .h), 8, 2, []⟩ s

/-- LD L,d8, 0x2E (R217). -/
def execLdLD8 (d8 : Byte) (s : State) : Result :=
  execute ⟨.loadByte (.imm d8) (.reg .l), 8, 2, []⟩ s

/-- LD (HL),d8, 0x36 (R218). -/
def execLdAtHlD8 (d8 : Byte) (s : State) : Result :=
  execute ⟨.loadByte (.imm d8) (.mem (s.pair .hl)), 12, 2, []⟩ s

/-- LD A,d8, 0x3E (R219). -/
def execLdAD8 (d8 : Byte) (s : State) : Result :=
  execute ⟨.loadByte (.imm d8) (.reg .a), 8, 2, []⟩ s

/-- LD (BC),A, 0x02 (R220). -/
def execLdAtBcA (s : State) : Result :=
  execute ⟨.loadByte (.reg .a) (.mem (s.pair .bc)), 8, 1, []⟩ s

/-- LD (DE),A, 0x12 (R221). -/
def execLdAtDeA (s : State) : Result :=
  execute ⟨.loadByte (.reg .a) (.mem (s.pair .de)), 8, 1, []⟩ s

/-- LD A,(BC), 0x0A (R222). -/
def execLdAAtBc (s : State) : Result :=
  execute ⟨.loadByte (.mem (s.pair .bc)) (.reg .a), 8, 1, []⟩ s

/-- LD A,(DE), 0x1A (R223). -/
def execLdAAtDe (s : State) : Result :=
  execute ⟨.loadByte (.mem (s.pair .de)) (.reg .a), 8, 1, []⟩ s

/-- LD (HL+),A, 0x22 (R224). -/
def execLdAtHlIncA (s : State) : Result :=
  execute ⟨.loadByte (.reg .a) (.mem (s.pair .hl)), 8, 1, [.incHl]⟩ s

/-- LD A,(HL+), 0x2A (R225). -/
def execLdAAtHlInc (s : State) : Result :=
  execute ⟨.loadByte (.mem (s.pair .hl)) (.reg .a), 8, 1, [.incHl]⟩ s

/-- LD (HL-),A, 0x32 (R226). -/
def execLdAtHlDecA (s : State) : Result :=
  execute ⟨.loadByte (.reg .a) (.mem (s.pair .hl)), 8, 1, [.decHl]⟩ s

/-- LD A,(HL-), 0x3A (R227). -/
def execLdAAtHlDec (s : State) : Result :=
  execute ⟨.loadByte (.mem (s.pair .hl)) (.reg .a), 8, 1, [.decHl]⟩ s

/-- LDH (a8),A, 0xE0 (R229). -/
def execLdhAtA8A (a8 : Byte) (s : State) : Result :=
  execute ⟨.loadByte (.reg .a) (.mem (zeroPage s.cfg.zpExt a8)), 12, 2, []⟩ s

/-- LDH A,(a8), 0xF0 (R230). -/
def execLdhAAtA8 (a8 : Byte) (s : State) : Result :=
  execute ⟨.loadByte (.mem (zeroPage s.cfg.zpExt a8)) (.reg .a), 12, 2, []⟩ s

/-- LD (C),A, 0xE2 (R231). -/
def execLdAtCA (s : State) : Result :=
  execute ⟨.loadByte (.reg .a) (.mem (zeroPage s.cfg.zpExt s.c)), 8, 1, []⟩ s

/-- LD A,(C), 0xF2 (R232). -/
def execLdAAtC (s : State) : Result :=
  execute ⟨.loadByte (.mem (zeroPage s.cfg.zpExt s.c)) (.reg .a), 8, 1, []⟩ s

/-- LD (a16),A, 0xEA (R233). Cost 16, the table's (90_conflicts.md C1, log 14). -/
def execLdAtA16A (a16 : Word) (s : State) : Result :=
  execute ⟨.loadByte (.reg .a) (.mem a16), 16, 3, []⟩ s

/-- LD A,(a16), 0xFA (R234). -/
def execLdAAtA16 (a16 : Word) (s : State) : Result :=
  execute ⟨.loadByte (.mem a16) (.reg .a), 16, 3, []⟩ s

end Sys2Proof.Machine
end

