-- ==== Sys2Proof/Machine/LoadByteReg.lean ====
section
/-! DEFINITION. The 63 loads of the block 0x40 to 0x7F (41_load_byte_reg.md), one meaning each. `(HL)` is the
cell at the value the pair HL has when the step begins (R113, R140). That bits 5:3 are the destination is PRESUMED,
the spec's own mark (R141, log 10). -/

namespace Sys2Proof.Machine

/-- LD B,B, 0x40 (R144). -/
def execLdBB (s : State) : Result :=
  execute ⟨.loadByte (.reg .b) (.reg .b), 4, 1, []⟩ s

/-- LD B,C, 0x41 (R145). -/
def execLdBC (s : State) : Result :=
  execute ⟨.loadByte (.reg .c) (.reg .b), 4, 1, []⟩ s

/-- LD B,D, 0x42 (R146). -/
def execLdBD (s : State) : Result :=
  execute ⟨.loadByte (.reg .d) (.reg .b), 4, 1, []⟩ s

/-- LD B,E, 0x43 (R147). -/
def execLdBE (s : State) : Result :=
  execute ⟨.loadByte (.reg .e) (.reg .b), 4, 1, []⟩ s

/-- LD B,H, 0x44 (R148). -/
def execLdBH (s : State) : Result :=
  execute ⟨.loadByte (.reg .h) (.reg .b), 4, 1, []⟩ s

/-- LD B,L, 0x45 (R149). -/
def execLdBL (s : State) : Result :=
  execute ⟨.loadByte (.reg .l) (.reg .b), 4, 1, []⟩ s

/-- LD B,(HL), 0x46 (R150). -/
def execLdBAtHl (s : State) : Result :=
  execute ⟨.loadByte (.mem (s.pair .hl)) (.reg .b), 8, 1, []⟩ s

/-- LD B,A, 0x47 (R151). -/
def execLdBA (s : State) : Result :=
  execute ⟨.loadByte (.reg .a) (.reg .b), 4, 1, []⟩ s

/-- LD C,B, 0x48 (R152). -/
def execLdCB (s : State) : Result :=
  execute ⟨.loadByte (.reg .b) (.reg .c), 4, 1, []⟩ s

/-- LD C,C, 0x49 (R153). -/
def execLdCC (s : State) : Result :=
  execute ⟨.loadByte (.reg .c) (.reg .c), 4, 1, []⟩ s

/-- LD C,D, 0x4A (R154). -/
def execLdCD (s : State) : Result :=
  execute ⟨.loadByte (.reg .d) (.reg .c), 4, 1, []⟩ s

/-- LD C,E, 0x4B (R155). -/
def execLdCE (s : State) : Result :=
  execute ⟨.loadByte (.reg .e) (.reg .c), 4, 1, []⟩ s

/-- LD C,H, 0x4C (R156). -/
def execLdCH (s : State) : Result :=
  execute ⟨.loadByte (.reg .h) (.reg .c), 4, 1, []⟩ s

/-- LD C,L, 0x4D (R157). -/
def execLdCL (s : State) : Result :=
  execute ⟨.loadByte (.reg .l) (.reg .c), 4, 1, []⟩ s

/-- LD C,(HL), 0x4E (R158). -/
def execLdCAtHl (s : State) : Result :=
  execute ⟨.loadByte (.mem (s.pair .hl)) (.reg .c), 8, 1, []⟩ s

/-- LD C,A, 0x4F (R159). -/
def execLdCA (s : State) : Result :=
  execute ⟨.loadByte (.reg .a) (.reg .c), 4, 1, []⟩ s

/-- LD D,B, 0x50 (R160). -/
def execLdDB (s : State) : Result :=
  execute ⟨.loadByte (.reg .b) (.reg .d), 4, 1, []⟩ s

/-- LD D,C, 0x51 (R161). -/
def execLdDC (s : State) : Result :=
  execute ⟨.loadByte (.reg .c) (.reg .d), 4, 1, []⟩ s

/-- LD D,D, 0x52 (R162). -/
def execLdDD (s : State) : Result :=
  execute ⟨.loadByte (.reg .d) (.reg .d), 4, 1, []⟩ s

/-- LD D,E, 0x53 (R163). -/
def execLdDE (s : State) : Result :=
  execute ⟨.loadByte (.reg .e) (.reg .d), 4, 1, []⟩ s

/-- LD D,H, 0x54 (R164). -/
def execLdDH (s : State) : Result :=
  execute ⟨.loadByte (.reg .h) (.reg .d), 4, 1, []⟩ s

/-- LD D,L, 0x55 (R165). -/
def execLdDL (s : State) : Result :=
  execute ⟨.loadByte (.reg .l) (.reg .d), 4, 1, []⟩ s

/-- LD D,(HL), 0x56 (R166). -/
def execLdDAtHl (s : State) : Result :=
  execute ⟨.loadByte (.mem (s.pair .hl)) (.reg .d), 8, 1, []⟩ s

/-- LD D,A, 0x57 (R167). -/
def execLdDA (s : State) : Result :=
  execute ⟨.loadByte (.reg .a) (.reg .d), 4, 1, []⟩ s

/-- LD E,B, 0x58 (R168). -/
def execLdEB (s : State) : Result :=
  execute ⟨.loadByte (.reg .b) (.reg .e), 4, 1, []⟩ s

/-- LD E,C, 0x59 (R169). -/
def execLdEC (s : State) : Result :=
  execute ⟨.loadByte (.reg .c) (.reg .e), 4, 1, []⟩ s

/-- LD E,D, 0x5A (R170). -/
def execLdED (s : State) : Result :=
  execute ⟨.loadByte (.reg .d) (.reg .e), 4, 1, []⟩ s

/-- LD E,E, 0x5B (R171). -/
def execLdEE (s : State) : Result :=
  execute ⟨.loadByte (.reg .e) (.reg .e), 4, 1, []⟩ s

/-- LD E,H, 0x5C (R172). -/
def execLdEH (s : State) : Result :=
  execute ⟨.loadByte (.reg .h) (.reg .e), 4, 1, []⟩ s

/-- LD E,L, 0x5D (R173). -/
def execLdEL (s : State) : Result :=
  execute ⟨.loadByte (.reg .l) (.reg .e), 4, 1, []⟩ s

/-- LD E,(HL), 0x5E (R174). -/
def execLdEAtHl (s : State) : Result :=
  execute ⟨.loadByte (.mem (s.pair .hl)) (.reg .e), 8, 1, []⟩ s

/-- LD E,A, 0x5F (R175). -/
def execLdEA (s : State) : Result :=
  execute ⟨.loadByte (.reg .a) (.reg .e), 4, 1, []⟩ s

/-- LD H,B, 0x60 (R176). -/
def execLdHB (s : State) : Result :=
  execute ⟨.loadByte (.reg .b) (.reg .h), 4, 1, []⟩ s

/-- LD H,C, 0x61 (R177). -/
def execLdHC (s : State) : Result :=
  execute ⟨.loadByte (.reg .c) (.reg .h), 4, 1, []⟩ s

/-- LD H,D, 0x62 (R178). -/
def execLdHD (s : State) : Result :=
  execute ⟨.loadByte (.reg .d) (.reg .h), 4, 1, []⟩ s

/-- LD H,E, 0x63 (R179). -/
def execLdHE (s : State) : Result :=
  execute ⟨.loadByte (.reg .e) (.reg .h), 4, 1, []⟩ s

/-- LD H,H, 0x64 (R180). -/
def execLdHH (s : State) : Result :=
  execute ⟨.loadByte (.reg .h) (.reg .h), 4, 1, []⟩ s

/-- LD H,L, 0x65 (R181). -/
def execLdHL (s : State) : Result :=
  execute ⟨.loadByte (.reg .l) (.reg .h), 4, 1, []⟩ s

/-- LD H,(HL), 0x66 (R182). -/
def execLdHAtHl (s : State) : Result :=
  execute ⟨.loadByte (.mem (s.pair .hl)) (.reg .h), 8, 1, []⟩ s

/-- LD H,A, 0x67 (R183). -/
def execLdHA (s : State) : Result :=
  execute ⟨.loadByte (.reg .a) (.reg .h), 4, 1, []⟩ s

/-- LD L,B, 0x68 (R184). -/
def execLdLB (s : State) : Result :=
  execute ⟨.loadByte (.reg .b) (.reg .l), 4, 1, []⟩ s

/-- LD L,C, 0x69 (R185). -/
def execLdLC (s : State) : Result :=
  execute ⟨.loadByte (.reg .c) (.reg .l), 4, 1, []⟩ s

/-- LD L,D, 0x6A (R186). -/
def execLdLD (s : State) : Result :=
  execute ⟨.loadByte (.reg .d) (.reg .l), 4, 1, []⟩ s

/-- LD L,E, 0x6B (R187). -/
def execLdLE (s : State) : Result :=
  execute ⟨.loadByte (.reg .e) (.reg .l), 4, 1, []⟩ s

/-- LD L,H, 0x6C (R188). -/
def execLdLH (s : State) : Result :=
  execute ⟨.loadByte (.reg .h) (.reg .l), 4, 1, []⟩ s

/-- LD L,L, 0x6D (R189). -/
def execLdLL (s : State) : Result :=
  execute ⟨.loadByte (.reg .l) (.reg .l), 4, 1, []⟩ s

/-- LD L,(HL), 0x6E (R190). -/
def execLdLAtHl (s : State) : Result :=
  execute ⟨.loadByte (.mem (s.pair .hl)) (.reg .l), 8, 1, []⟩ s

/-- LD L,A, 0x6F (R191). -/
def execLdLA (s : State) : Result :=
  execute ⟨.loadByte (.reg .a) (.reg .l), 4, 1, []⟩ s

/-- LD (HL),B, 0x70 (R192). -/
def execLdAtHlB (s : State) : Result :=
  execute ⟨.loadByte (.reg .b) (.mem (s.pair .hl)), 8, 1, []⟩ s

/-- LD (HL),C, 0x71 (R193). -/
def execLdAtHlC (s : State) : Result :=
  execute ⟨.loadByte (.reg .c) (.mem (s.pair .hl)), 8, 1, []⟩ s

/-- LD (HL),D, 0x72 (R194). -/
def execLdAtHlD (s : State) : Result :=
  execute ⟨.loadByte (.reg .d) (.mem (s.pair .hl)), 8, 1, []⟩ s

/-- LD (HL),E, 0x73 (R195). -/
def execLdAtHlE (s : State) : Result :=
  execute ⟨.loadByte (.reg .e) (.mem (s.pair .hl)), 8, 1, []⟩ s

/-- LD (HL),H, 0x74 (R196). -/
def execLdAtHlH (s : State) : Result :=
  execute ⟨.loadByte (.reg .h) (.mem (s.pair .hl)), 8, 1, []⟩ s

/-- LD (HL),L, 0x75 (R197). -/
def execLdAtHlL (s : State) : Result :=
  execute ⟨.loadByte (.reg .l) (.mem (s.pair .hl)), 8, 1, []⟩ s

/-- LD (HL),A, 0x77 (R198). -/
def execLdAtHlA (s : State) : Result :=
  execute ⟨.loadByte (.reg .a) (.mem (s.pair .hl)), 8, 1, []⟩ s

/-- LD A,B, 0x78 (R199). -/
def execLdAB (s : State) : Result :=
  execute ⟨.loadByte (.reg .b) (.reg .a), 4, 1, []⟩ s

/-- LD A,C, 0x79 (R200). -/
def execLdAC (s : State) : Result :=
  execute ⟨.loadByte (.reg .c) (.reg .a), 4, 1, []⟩ s

/-- LD A,D, 0x7A (R201). -/
def execLdAD (s : State) : Result :=
  execute ⟨.loadByte (.reg .d) (.reg .a), 4, 1, []⟩ s

/-- LD A,E, 0x7B (R202). -/
def execLdAE (s : State) : Result :=
  execute ⟨.loadByte (.reg .e) (.reg .a), 4, 1, []⟩ s

/-- LD A,H, 0x7C (R203). -/
def execLdAH (s : State) : Result :=
  execute ⟨.loadByte (.reg .h) (.reg .a), 4, 1, []⟩ s

/-- LD A,L, 0x7D (R204). -/
def execLdAL (s : State) : Result :=
  execute ⟨.loadByte (.reg .l) (.reg .a), 4, 1, []⟩ s

/-- LD A,(HL), 0x7E (R205). -/
def execLdAAtHl (s : State) : Result :=
  execute ⟨.loadByte (.mem (s.pair .hl)) (.reg .a), 8, 1, []⟩ s

/-- LD A,A, 0x7F (R206). -/
def execLdAA (s : State) : Result :=
  execute ⟨.loadByte (.reg .a) (.reg .a), 4, 1, []⟩ s

end Sys2Proof.Machine
end

