-- ==== Sys2Proof/Machine/LoadWord.lean ====
section
/-! DEFINITION. The seven 16-bit loads (43_load_word.md), one meaning each. The values of the tier-2 rows are
PRESUMED, the spec's own mark (R92, log 11). -/

namespace Sys2Proof.Machine

/-- LD BC,d16, 0x01 (R251). -/
def execLdBcD16 (d16 : Word) (s : State) : Result :=
  execute ⟨.loadWord (.val d16) (.pair .bc), 12, 3, []⟩ s

/-- LD DE,d16, 0x11 (R252). -/
def execLdDeD16 (d16 : Word) (s : State) : Result :=
  execute ⟨.loadWord (.val d16) (.pair .de), 12, 3, []⟩ s

/-- LD HL,d16, 0x21 (R253). -/
def execLdHlD16 (d16 : Word) (s : State) : Result :=
  execute ⟨.loadWord (.val d16) (.pair .hl), 12, 3, []⟩ s

/-- LD SP,d16, 0x31 (R254). -/
def execLdSpD16 (d16 : Word) (s : State) : Result :=
  execute ⟨.loadWord (.val d16) .sp, 12, 3, []⟩ s

/-- LD (a16),SP, 0x08 (R255). -/
def execLdAtA16Sp (a16 : Word) (s : State) : Result :=
  execute ⟨.loadWord .sp (.mem a16), 20, 3, []⟩ s

/-- LD HL,SP+r8, 0xF8 (R256). The source is the computed word; no flag is written. -/
def execLdHlSpR8 (r8 : Byte) (s : State) : Result :=
  execute ⟨.loadWord (.val (s.sp + sext16 r8)) (.pair .hl), 12, 2, []⟩ s

/-- LD SP,HL, 0xF9 (R257). -/
def execLdSpHl (s : State) : Result :=
  execute ⟨.loadWord (.pair .hl) .sp, 8, 1, []⟩ s

end Sys2Proof.Machine
end

