-- ==== Sys2Proof/Machine/Stack.lean ====
section
/-! DEFINITION. PUSH and POP (44_push_pop.md), one meaning each. -/

namespace Sys2Proof.Machine

/-- PUSH BC, 0xC5 (R272). -/
def execPushBc (s : State) : Result :=
  execute ⟨.push (.pair .bc), 16, 1, []⟩ s

/-- PUSH DE, 0xD5 (R273). -/
def execPushDe (s : State) : Result :=
  execute ⟨.push (.pair .de), 16, 1, []⟩ s

/-- PUSH HL, 0xE5 (R274). -/
def execPushHl (s : State) : Result :=
  execute ⟨.push (.pair .hl), 16, 1, []⟩ s

/-- PUSH AF, 0xF5 (R275). -/
def execPushAf (s : State) : Result :=
  execute ⟨.push (.pair .af), 16, 1, []⟩ s

/-- POP BC, 0xC1 (R276). -/
def execPopBc (s : State) : Result :=
  execute ⟨.pop (.pair .bc), 12, 1, []⟩ s

/-- POP DE, 0xD1 (R277). -/
def execPopDe (s : State) : Result :=
  execute ⟨.pop (.pair .de), 12, 1, []⟩ s

/-- POP HL, 0xE1 (R278). -/
def execPopHl (s : State) : Result :=
  execute ⟨.pop (.pair .hl), 12, 1, []⟩ s

/-- POP AF, 0xF1 (R279). -/
def execPopAf (s : State) : Result :=
  execute ⟨.pop (.pair .af), 12, 1, []⟩ s

end Sys2Proof.Machine
end

