-- ==== Sys2Proof/Machine/Unimplemented.lean ====
section
/-! DEFINITION. An opcode byte with no handler (45_unimplemented.md): its whole effect is the fault entry of
60_exceptions.md R313. -/

namespace Sys2Proof.Machine

/-- R290, R311: UnimplementedOpcode(op, pc) is latched and nothing else changes; the step ends normally with the latch
set (log 7). -/
def execUnimplemented (op : Byte) (s : State) : Result :=
  .next (s.raise (.unimplementedOpcode op s.pc))

end Sys2Proof.Machine
end

