-- ==== Sys2Proof/Machine/Step.lean ====
section
/-! DEFINITION. The step function (40_instruction_protocol.md R131) and where the host places an instruction. -/

namespace Sys2Proof.Machine

/-- `Step` (R131): nothing while the latch is set; otherwise decode the instruction at PC and execute it. -/
def step (s : State) : Host.Outcome State Fault Refusal :=
  match s.fault with
  | some r => haltedStep r s
  | none =>
    match decodeNext s with
    | .error r => .next (s.raise r)
    | .ok i    => exec i s

/-- The state with an instruction, numbered as spec/opcode_table.json numbers it, in the three bytes from PC up (log 3). -/
def State.withFetchWord (s : State) (nbits w : Nat) : State :=
  State.storeBytes s.pc (tableBytes nbits w) s

end Sys2Proof.Machine
end

