-- ==== Sys2Proof/Safety.lean ====
section
/-! DEFINITION. What counts as a sound state and a safe run, in the terms claims use. -/

namespace Sys2Proof.Machine

/-- A latched record tells the truth about the state that holds it: the opcode byte at PC has no handler (R311), or the memory
policy refuses the recorded access (R312). Since a faulting step changes nothing else and no step follows it (R313), this
holds for good. -/
def State.latchSound (s : State) : Bool :=
  match s.fault with
  | none => true
  | some (.unimplementedOpcode op loc) =>
    loc == s.pc && op == s.memRead8 s.pc && !decodable s.cfg.admitTier2 op
  | some (.invalidAddress a .fetch) => !admitsRead s.cfg.memmap a
  | some (.invalidAddress a .read)  => !admitsRead s.cfg.memmap a
  | some (.invalidAddress a .write) => !admitsWrite s.cfg.memmap a

/-- The invariant of the machine: memory in canonical form and a truthful latch. -/
abbrev State.Inv (s : State) : Prop := s.mem.wf = true ∧ s.latchSound = true

/-- The core can take a step (R37, R131). -/
abbrev State.Running (s : State) : Prop := s.fault = none

/-- A safe run of `k` steps: it reaches a state that is still running, so every instruction of the run completed (R132, R314). -/
abbrev SafeRun (k : Nat) (s t : State) : Prop := Host.Core.run core k s = .next t ∧ t.Running

/-! The words statements use, written from the spec's lists and not from the meanings. -/

/-- `u`, with PC and `clk` advanced from `s` by a length and a cycle cost: steps 3 and 4 of execute (R117, R118). -/
def State.finished (s u : State) (length cycles : Nat) : State :=
  { u with pc := s.pc + BitVec.ofNat 16 length, clk := s.clk + cycles + s.cfg.tickBias.val }

/-- The policy admits a read of each of these cells. -/
abbrev State.CanRead (s : State) (cells : List Word) : Prop := cells.all (admitsRead s.cfg.memmap) = true

/-- The policy admits a write of each of these cells. -/
abbrev State.CanWrite (s : State) (cells : List Word) : Prop := cells.all (admitsWrite s.cfg.memmap) = true

/-- The 3-bit code of a register (R85). -/
def regCode : Reg8 → BitVec 3
  | .b => 0
  | .c => 1
  | .d => 2
  | .e => 3
  | .h => 4
  | .l => 5
  | .a => 7

/-- `01 ddd sss` (R94, R141). -/
def blockOpcode (ddd sss : BitVec 3) : Byte := 0b01#2 ++ ddd ++ sss

/-- `00 yyy 110` (R211). -/
def immOpcode (yyy : BitVec 3) : Byte := 0b00#2 ++ yyy ++ 0b110#3

/-- The 2-bit code of a pair for PUSH and POP (R86). -/
def pairCode : Pair → BitVec 2
  | .bc => 0
  | .de => 1
  | .hl => 2
  | .af => 3

/-- `11 pp0 101` (R270). -/
def pushOpcode (p : Pair) : Byte := 0b11#2 ++ pairCode p ++ 0b0101#4

/-- `11 pp0 001` (R271). -/
def popOpcode (p : Pair) : Byte := 0b11#2 ++ pairCode p ++ 0b0001#4

/-- `length(op)` of a decodable opcode, as R93 lists it. -/
def lengthOf (op : Byte) : Nat :=
  if op ∈ ([0x01, 0x08, 0x11, 0x21, 0x31, 0xEA, 0xFA] : List Byte) then 3
  else if op ∈ ([0x06, 0x0E, 0x16, 0x1E, 0x26, 0x2E, 0x36, 0x3E, 0xE0, 0xF0, 0xF8] : List Byte) then 2
  else 1

/-- `cycles(op)` of a decodable opcode: the Cycles column of R91, grouped as R357 groups it. -/
def costOf (op : Byte) : Nat :=
  if op = 0x08 then 20
  else if op ∈ ([0xC5, 0xD5, 0xE5, 0xF5, 0xEA, 0xFA] : List Byte) then 16
  else if op ∈ ([0x36, 0x01, 0x11, 0x21, 0x31, 0xE0, 0xF0, 0xF8, 0xC1, 0xD1, 0xE1, 0xF1] : List Byte) then 12
  else if op.extractLsb' 6 2 = 0b01#2 ∧ op.extractLsb' 3 3 ≠ 6#3 ∧ op.extractLsb' 0 3 ≠ 6#3 then 4
  else 8

/-- The immediate cells of the instruction at PC, in fetch order (R61, R93). -/
def immediateCells (s : State) : List Word :=
  if lengthOf (s.memRead8 s.pc) = 3 then [s.pc + 1, s.pc + 2]
  else if lengthOf (s.memRead8 s.pc) = 2 then [s.pc + 1]
  else []

/-- The address of the byte an instruction stores, for the instructions that store one (42 and 41 rules; R318). -/
def byteStoredTo (i : Instr) (s : State) : Option Word :=
  match i with
  | .ldAtHlB | .ldAtHlC | .ldAtHlD | .ldAtHlE | .ldAtHlH | .ldAtHlL | .ldAtHlA | .ldAtHlD8 _
  | .ldAtHlIncA | .ldAtHlDecA => some (s.pair .hl)
  | .ldAtBcA     => some (s.pair .bc)
  | .ldAtDeA     => some (s.pair .de)
  | .ldhAtA8A a8 => some (zeroPage s.cfg.zpExt a8)
  | .ldAtCA      => some (zeroPage s.cfg.zpExt s.c)
  | .ldAtA16A a  => some a
  | .ldBcD16 _ | .ldBD8 _ | .ldAtA16Sp _ | .ldAAtBc | .ldCD8 _ | .ldDeD16 _ | .ldDD8 _ | .ldAAtDe | .ldED8 _
  | .ldHlD16 _ | .ldHD8 _ | .ldAAtHlInc | .ldLD8 _ | .ldSpD16 _ | .ldAAtHlDec | .ldAD8 _ | .ldBB | .ldBC | .ldBD
  | .ldBE | .ldBH | .ldBL | .ldBAtHl | .ldBA | .ldCB | .ldCC | .ldCD | .ldCE | .ldCH | .ldCL | .ldCAtHl | .ldCA
  | .ldDB | .ldDC | .ldDD | .ldDE | .ldDH | .ldDL | .ldDAtHl | .ldDA | .ldEB | .ldEC | .ldED | .ldEE | .ldEH | .ldEL
  | .ldEAtHl | .ldEA | .ldHB | .ldHC | .ldHD | .ldHE | .ldHH | .ldHL | .ldHAtHl | .ldHA | .ldLB | .ldLC | .ldLD
  | .ldLE | .ldLH | .ldLL | .ldLAtHl | .ldLA | .ldAB | .ldAC | .ldAD | .ldAE | .ldAH | .ldAL | .ldAAtHl | .ldAA
  | .popBc | .pushBc | .popDe | .pushDe | .popHl | .pushHl | .ldhAAtA8 _ | .popAf | .ldAAtC | .pushAf | .ldHlSpR8 _
  | .ldSpHl | .ldAAtA16 _ | .unimplemented _ => none

/-- The address of the word an instruction stores, low byte first, for the instructions that store one (R255, R270). -/
def wordStoredTo (i : Instr) (s : State) : Option Word :=
  match i with
  | .ldAtA16Sp a => some a
  | .pushBc | .pushDe | .pushHl | .pushAf => some (s.sp - 2)
  | .ldBcD16 _ | .ldAtBcA | .ldBD8 _ | .ldAAtBc | .ldCD8 _ | .ldDeD16 _ | .ldAtDeA | .ldDD8 _ | .ldAAtDe | .ldED8 _
  | .ldHlD16 _ | .ldAtHlIncA | .ldHD8 _ | .ldAAtHlInc | .ldLD8 _ | .ldSpD16 _ | .ldAtHlDecA | .ldAtHlD8 _
  | .ldAAtHlDec | .ldAD8 _ | .ldBB | .ldBC | .ldBD | .ldBE | .ldBH | .ldBL | .ldBAtHl | .ldBA | .ldCB | .ldCC | .ldCD
  | .ldCE | .ldCH | .ldCL | .ldCAtHl | .ldCA | .ldDB | .ldDC | .ldDD | .ldDE | .ldDH | .ldDL | .ldDAtHl | .ldDA
  | .ldEB | .ldEC | .ldED | .ldEE | .ldEH | .ldEL | .ldEAtHl | .ldEA | .ldHB | .ldHC | .ldHD | .ldHE | .ldHH | .ldHL
  | .ldHAtHl | .ldHA | .ldLB | .ldLC | .ldLD | .ldLE | .ldLH | .ldLL | .ldLAtHl | .ldLA | .ldAtHlB | .ldAtHlC
  | .ldAtHlD | .ldAtHlE | .ldAtHlH | .ldAtHlL | .ldAtHlA | .ldAB | .ldAC | .ldAD | .ldAE | .ldAH | .ldAL | .ldAAtHl
  | .ldAA | .popBc | .popDe | .ldhAtA8A _ | .popHl | .ldAtCA | .ldAtA16A _ | .ldhAAtA8 _ | .popAf | .ldAAtC
  | .ldHlSpR8 _ | .ldSpHl | .ldAAtA16 _ | .unimplemented _ => none

/-- The address of the data byte an instruction loads, for the instructions that load one (R318). -/
def byteLoadedFrom (i : Instr) (s : State) : Option Word :=
  match i with
  | .ldBAtHl | .ldCAtHl | .ldDAtHl | .ldEAtHl | .ldHAtHl | .ldLAtHl | .ldAAtHl | .ldAAtHlInc | .ldAAtHlDec =>
    some (s.pair .hl)
  | .ldAAtBc     => some (s.pair .bc)
  | .ldAAtDe     => some (s.pair .de)
  | .ldhAAtA8 a8 => some (zeroPage s.cfg.zpExt a8)
  | .ldAAtC      => some (zeroPage s.cfg.zpExt s.c)
  | .ldAAtA16 a  => some a
  | .ldBcD16 _ | .ldAtBcA | .ldBD8 _ | .ldAtA16Sp _ | .ldCD8 _ | .ldDeD16 _ | .ldAtDeA | .ldDD8 _ | .ldED8 _
  | .ldHlD16 _ | .ldAtHlIncA | .ldHD8 _ | .ldLD8 _ | .ldSpD16 _ | .ldAtHlDecA | .ldAtHlD8 _ | .ldAD8 _ | .ldBB
  | .ldBC | .ldBD | .ldBE | .ldBH | .ldBL | .ldBA | .ldCB | .ldCC | .ldCD | .ldCE | .ldCH | .ldCL | .ldCA | .ldDB
  | .ldDC | .ldDD | .ldDE | .ldDH | .ldDL | .ldDA | .ldEB | .ldEC | .ldED | .ldEE | .ldEH | .ldEL | .ldEA | .ldHB
  | .ldHC | .ldHD | .ldHE | .ldHH | .ldHL | .ldHA | .ldLB | .ldLC | .ldLD | .ldLE | .ldLH | .ldLL | .ldLA | .ldAtHlB
  | .ldAtHlC | .ldAtHlD | .ldAtHlE | .ldAtHlH | .ldAtHlL | .ldAtHlA | .ldAB | .ldAC | .ldAD | .ldAE | .ldAH | .ldAL
  | .ldAA | .popBc | .pushBc | .popDe | .pushDe | .ldhAtA8A _ | .popHl | .ldAtCA | .pushHl | .ldAtA16A _ | .popAf
  | .pushAf | .ldHlSpR8 _ | .ldSpHl | .unimplemented _ => none

/-- The address of the data word an instruction loads, low byte first: POP (R271). -/
def wordLoadedFrom (i : Instr) (s : State) : Option Word :=
  match i with
  | .popBc | .popDe | .popHl | .popAf => some s.sp
  | .ldBcD16 _ | .ldAtBcA | .ldBD8 _ | .ldAtA16Sp _ | .ldAAtBc | .ldCD8 _ | .ldDeD16 _ | .ldAtDeA | .ldDD8 _
  | .ldAAtDe | .ldED8 _ | .ldHlD16 _ | .ldAtHlIncA | .ldHD8 _ | .ldAAtHlInc | .ldLD8 _ | .ldSpD16 _ | .ldAtHlDecA
  | .ldAtHlD8 _ | .ldAAtHlDec | .ldAD8 _ | .ldBB | .ldBC | .ldBD | .ldBE | .ldBH | .ldBL | .ldBAtHl | .ldBA | .ldCB
  | .ldCC | .ldCD | .ldCE | .ldCH | .ldCL | .ldCAtHl | .ldCA | .ldDB | .ldDC | .ldDD | .ldDE | .ldDH | .ldDL
  | .ldDAtHl | .ldDA | .ldEB | .ldEC | .ldED | .ldEE | .ldEH | .ldEL | .ldEAtHl | .ldEA | .ldHB | .ldHC | .ldHD
  | .ldHE | .ldHH | .ldHL | .ldHAtHl | .ldHA | .ldLB | .ldLC | .ldLD | .ldLE | .ldLH | .ldLL | .ldLAtHl | .ldLA
  | .ldAtHlB | .ldAtHlC | .ldAtHlD | .ldAtHlE | .ldAtHlH | .ldAtHlL | .ldAtHlA | .ldAB | .ldAC | .ldAD | .ldAE
  | .ldAH | .ldAL | .ldAAtHl | .ldAA | .pushBc | .pushDe | .ldhAtA8A _ | .ldAtCA | .pushHl | .ldAtA16A _
  | .ldhAAtA8 _ | .ldAAtC | .pushAf | .ldHlSpR8 _ | .ldSpHl | .ldAAtA16 _ | .unimplemented _ => none

/-- Every byte an instruction stores, with its address, in order: low byte first for a word (the MemWrite of the per-opcode rules 41 to 44,
R62). -/
def bytesStored (i : Instr) (s : State) : List (Word × Byte) :=
  match i with
  | .ldAtHlB => [(s.pair .hl, s.b)]
  | .ldAtHlC => [(s.pair .hl, s.c)]
  | .ldAtHlD => [(s.pair .hl, s.d)]
  | .ldAtHlE => [(s.pair .hl, s.e)]
  | .ldAtHlH => [(s.pair .hl, s.h)]
  | .ldAtHlL => [(s.pair .hl, s.l)]
  | .ldAtHlA => [(s.pair .hl, s.a)]
  | .ldAtHlD8 d8 => [(s.pair .hl, d8)]
  | .ldAtHlIncA => [(s.pair .hl, s.a)]
  | .ldAtHlDecA => [(s.pair .hl, s.a)]
  | .ldAtBcA => [(s.pair .bc, s.a)]
  | .ldAtDeA => [(s.pair .de, s.a)]
  | .ldhAtA8A a8 => [(zeroPage s.cfg.zpExt a8, s.a)]
  | .ldAtCA => [(zeroPage s.cfg.zpExt s.c, s.a)]
  | .ldAtA16A a16 => [(a16, s.a)]
  | .ldAtA16Sp a16 => [(a16, lo8 s.sp), (a16 + 1, hi8 s.sp)]
  | .pushBc => [(s.sp - 2, s.c), (s.sp - 1, s.b)]
  | .pushDe => [(s.sp - 2, s.e), (s.sp - 1, s.d)]
  | .pushHl => [(s.sp - 2, s.l), (s.sp - 1, s.h)]
  | .pushAf => [(s.sp - 2, s.f), (s.sp - 1, s.a)]
  | .ldBcD16 _ | .ldBD8 _ | .ldAAtBc | .ldCD8 _ | .ldDeD16 _ | .ldDD8 _ | .ldAAtDe | .ldED8 _ | .ldHlD16 _ | .ldHD8 _
  | .ldAAtHlInc | .ldLD8 _ | .ldSpD16 _ | .ldAAtHlDec | .ldAD8 _ | .ldBB | .ldBC | .ldBD | .ldBE | .ldBH | .ldBL
  | .ldBAtHl | .ldBA | .ldCB | .ldCC | .ldCD | .ldCE | .ldCH | .ldCL | .ldCAtHl | .ldCA | .ldDB | .ldDC | .ldDD
  | .ldDE | .ldDH | .ldDL | .ldDAtHl | .ldDA | .ldEB | .ldEC | .ldED | .ldEE | .ldEH | .ldEL | .ldEAtHl | .ldEA
  | .ldHB | .ldHC | .ldHD | .ldHE | .ldHH | .ldHL | .ldHAtHl | .ldHA | .ldLB | .ldLC | .ldLD | .ldLE | .ldLH | .ldLL
  | .ldLAtHl | .ldLA | .ldAB | .ldAC | .ldAD | .ldAE | .ldAH | .ldAL | .ldAAtHl | .ldAA | .popBc | .popDe | .popHl
  | .ldhAAtA8 _ | .popAf | .ldAAtC | .ldHlSpR8 _ | .ldSpHl | .ldAAtA16 _ | .unimplemented _ => []

/-- The byte at an address once an instruction has stored: what it stored there, and what was there otherwise (R53, R55). -/
def byteAfter (i : Instr) (s : State) (a : Word) : Byte :=
  match (bytesStored i s).find? (fun x => x.1 == a) with
  | some x => x.2
  | none   => s.cell a

/-- The cells of an optional byte and an optional word access, low byte first (R62, log 9). -/
def accessCells (byte word : Option Word) : List Word :=
  byte.toList ++ (match word with
    | some a => [a, a + 1]
    | none   => [])

end Sys2Proof.Machine
end

