-- ==== Sys2Proof/Certificates/Slice0/Obligations.lean ====
section
/-! DEFINITION. The statements for the provers. Each docstring names the rules of spec/ it formalises. -/

open Sys2Proof Sys2Proof.Machine

/-! Reset -/

/-- R39: at reset every register, SP, PC and memory byte takes the value of `INIT`, for every `INIT`; `clk` is 0 and the latch
empty. (The parameters are the model's field, log 4.) -/
def Obligations.ResetTakesInitAndClearsClockAndLatch : Prop :=
  ∀ (cfg : Config) (init : Init),
    let s := State.ofInit cfg init
    s.a = init.a ∧ s.f = init.f ∧ s.b = init.b ∧ s.c = init.c ∧ s.d = init.d ∧ s.e = init.e ∧ s.h = init.h ∧ s.l = init.l ∧
    s.sp = init.sp ∧ s.pc = init.pc ∧ (∀ a : Word, s.cell a = Memory.read init.mem a.toNat) ∧ s.clk = 0 ∧ s.fault = none

/-- The invariant holds after reset with any canonical `INIT` memory, and at `State.reset` (whose values are the model's choice, log
1, log 2). -/
def Obligations.ResetMeetsInvariant : Prop :=
  (∀ (cfg : Config) (init : Init), init.mem.wf = true → (State.ofInit cfg init).Inv) ∧ State.reset.Inv

/-! Registers and memory -/

/-- R24: each pair is its first-named register over its second-named; writing a pair writes both halves; a write through a byte
register is seen through the pair. -/
def Obligations.PairsAreTheirByteRegisters : Prop :=
  (∀ s : State,
    s.pair .af = wordOf s.a s.f ∧ s.pair .bc = wordOf s.b s.c ∧ s.pair .de = wordOf s.d s.e ∧ s.pair .hl = wordOf s.h s.l) ∧
  (∀ (s : State) (w : Word),
    (let t := s.setPair .af w; t.a = hi8 w ∧ t.f = lo8 w ∧ t = { s with a := hi8 w, f := lo8 w }) ∧
    (let t := s.setPair .bc w; t.b = hi8 w ∧ t.c = lo8 w ∧ t = { s with b := hi8 w, c := lo8 w }) ∧
    (let t := s.setPair .de w; t.d = hi8 w ∧ t.e = lo8 w ∧ t = { s with d := hi8 w, e := lo8 w }) ∧
    (let t := s.setPair .hl w; t.h = hi8 w ∧ t.l = lo8 w ∧ t = { s with h := hi8 w, l := lo8 w })) ∧
  (∀ (s : State) (p : Pair) (w : Word), (s.setPair p w).pair p = w) ∧
  (∀ (s : State) (v : Byte),
    (s.setReg8 .a v).pair .af = wordOf v s.f ∧
    (s.setReg8 .b v).pair .bc = wordOf v s.c ∧ (s.setReg8 .c v).pair .bc = wordOf s.b v ∧
    (s.setReg8 .d v).pair .de = wordOf v s.e ∧ (s.setReg8 .e v).pair .de = wordOf s.d v ∧
    (s.setReg8 .h v).pair .hl = wordOf v s.l ∧ (s.setReg8 .l v).pair .hl = wordOf s.h v)

/-- R52, R53: a byte write puts the byte in its cell and changes nothing else of the state; `MemRead(a, 1)` is `mem[a]`, the memory
policy being FLAT (R51; what another policy returns is PolicyReadsReturnWhatTheFirstWindowSays, log 5). -/
def Obligations.ByteWriteChangesOneCell : Prop :=
  (∀ (s : State) (a : Word) (v : Byte), s.mem.wf = true →
    (s.memWrite8 a v).cell a = v ∧
    (∀ b, b ≠ a → (s.memWrite8 a v).cell b = s.cell b) ∧
    s.memWrite8 a v = { s with mem := (s.memWrite8 a v).mem }) ∧
  (∀ (s : State) (a : Word), s.cfg.memmap = .flat → s.memRead8 a = s.cell a)

/-- R54, R55: words are little-endian; the low byte lies at the address, the high byte at the next one modulo 2^16; no other byte
changes; under FLAT a read gives the word written. -/
def Obligations.WordsAreLittleEndianAndWrap : Prop :=
  (∀ (s : State) (a : Word), (s.memRead16 a).toNat = (s.memRead8 (a + 1)).toNat * 256 + (s.memRead8 a).toNat) ∧
  (∀ (s : State) (a w : Word), s.mem.wf = true →
    (s.memWrite16 a w).cell a = lo8 w ∧ (s.memWrite16 a w).cell (a + 1) = hi8 w ∧
    (∀ b, b ≠ a → b ≠ a + 1 → (s.memWrite16 a w).cell b = s.cell b) ∧
    (s.cfg.memmap = .flat → (s.memWrite16 a w).memRead16 a = w) ∧
    s.memWrite16 a w = { s with mem := (s.memWrite16 a w).mem }) ∧
  (0xFFFF : Word) + 1 = 0x0000

/-- Canonical memories that read alike at every address are equal (the model's form of R29's map). -/
def Obligations.CanonicalMemoriesAreExtensional : Prop :=
  ∀ m m' : Memory, m.wf = true → m'.wf = true → (∀ a : Word, Memory.read m a.toNat = Memory.read m' a.toNat) → m = m'

/-- Every contents of the 65536 cells is some canonical memory, so that `INIT` memory is left open (R39, R51). -/
def Obligations.EveryContentsHasACanonicalMemory : Prop :=
  ∀ g : Word → Byte, ∃ m : Memory, m.wf = true ∧ ∀ a : Word, Memory.read m a.toNat = g a

/-! Encoding -/

/-- Decoding the encoding of a well-formed instruction gives it back, with the bytes after it, under either value of `ADMIT_TIER2`.
-/
def Obligations.DecodeOfEncodeIsTheInstruction : Prop :=
  ∀ (k : Bool) (i : Instr) (rest : List Byte), i.wellFormed k = true → decode k (encode i ++ rest) = .ok (i, rest)

/-- Whatever the decoder accepts is the encoding of the well-formed instruction it gives. -/
def Obligations.DecodedBytesAreTheEncoding : Prop :=
  ∀ (k : Bool) (bs rest : List Byte) (i : Instr), decode k bs = .ok (i, rest) → bs = encode i ++ rest ∧ i.wellFormed k = true

/-- Every opcode byte gives a well-formed instruction or the unimplemented signal, and never another byte's instruction (after R98;
the eight tier-2 bytes and the fields of 0x40 to 0x7F as log 10 and log 11 have them). -/
def Obligations.EveryOpcodeByteDecodesToItself : Prop :=
  ∀ (k : Bool) (op b1 b2 : Byte),
    (decodeBytes k op b1 b2).wellFormed k = true ∧ (encode (decodeBytes k op b1 b2)).head? = some op ∧
    (decodable k op = false ↔ decodeBytes k op b1 b2 = .unimplemented op)

/-- In the block 0x40 to 0x7F bits 5:3 name the destination and bits 2:0 the source, in the coding of R85 (after R94, R141; that
order and code 5 = L are PRESUMED, log 10: the spec marks them general knowledge); 0x76 is no load and latches UnimplementedOpcode
(R96). -/
def Obligations.BlockOpcodesNameDestinationThenSource : Prop :=
  ∀ (k : Bool) (b1 b2 : Byte),
    (∀ dst r : Reg8, decodeBytes k (blockOpcode (regCode dst) (regCode r)) b1 b2 = .regMove dst r) ∧
    (∀ dst : Reg8, decodeBytes k (blockOpcode (regCode dst) 6) b1 b2 = .loadAtHl dst) ∧
    (∀ r : Reg8, decodeBytes k (blockOpcode 6 (regCode r)) b1 b2 = .storeAtHl r) ∧
    blockOpcode 6 6 = 0x76 ∧ decodeBytes k 0x76 b1 b2 = .unimplemented 0x76 ∧
    (∀ s, exec (decodeBytes k 0x76 b1 b2) s = .next (s.raise (.unimplementedOpcode 0x76 s.pc)))

/-- 156 byte values have no handler when `ADMIT_TIER2` is true, 164 when it is false, 0x00 among them (after R95; log 11 for the
tier-2 bytes). -/
def Obligations.UnimplementedByteCounts : Prop :=
  ((List.range 256).filter (fun n => !decodable true (BitVec.ofNat 8 n))).length = 156 ∧
  ((List.range 256).filter (fun n => !decodable false (BitVec.ofNat 8 n))).length = 164 ∧
  decodeBytes true 0x00 0 0 = .unimplemented 0x00

/-- A few words written out from the spec's encodings, one for each family (the field order of 0x41, 0x74 and 0x7E is log 10's). -/
def Obligations.WordsFromTheEncodingTableDecode : Prop :=
  decodeTableWord 8 0x41 = some .ldBC ∧ decodeTableWord 8 0x7E = some .ldAAtHl ∧ decodeTableWord 8 0x74 = some .ldAtHlH ∧
  decodeTableWord 16 0x4206 = some (.ldBD8 0x42) ∧ decodeTableWord 8 0x22 = some .ldAtHlIncA ∧
  decodeTableWord 16 0x80E0 = some (.ldhAtA8A 0x80) ∧ decodeTableWord 24 0xC050EA = some (.ldAtA16A 0xC050) ∧
  decodeTableWord 24 0x123401 = some (.ldBcD16 0x1234) ∧ decodeTableWord 16 0xFEF8 = some (.ldHlSpR8 0xFE) ∧
  decodeTableWord 8 0xF5 = some .pushAf ∧ decodeTableWord 8 0xD1 = some .popDe ∧ decodeTableWord 8 0xCB = some (.unimplemented 0xCB)

/-- The length and the cost of a decodable opcode are functions of the byte alone; its instruction advances PC by the one and `clk`
by the other (with `TICK_BIAS`) under FLAT (R93 is the spec's derivation from R91; log 11 for the tier-2 rows). -/
def Obligations.LengthAndCostFollowFromTheOpcode : Prop :=
  ∀ (k : Bool) (op b1 b2 : Byte) (s : State), decodable k op = true → s.cfg.memmap = .flat →
    instrLength k op = lengthOf op ∧
    ∃ t, exec (decodeBytes k op b1 b2) s = .next t ∧ t.fault = s.fault ∧
      t.pc = s.pc + BitVec.ofNat 16 (lengthOf op) ∧ t.clk = s.clk + costOf op + s.cfg.tickBias.val

/-! 8-bit loads -/

/-- The 49 register-to-register moves of R140 (R144 to R206): the destination gets the source's byte; 4 cycles, 1 byte (which opcode
is which ordered pair is log 10's). -/
def Obligations.RegisterMoveCopies : Prop :=
  ∀ (dst r : Reg8) (s : State), exec (.regMove dst r) s = .next (s.finished (s.setReg8 dst (s.reg8 r)) 1 4)

/-- LD r,(HL) loads the byte at the HL of before the step; 8 cycles, 1 byte (after R150, R158, R166, R174, R182, R190, R205, whose
field order is PRESUMED, log 10). -/
def Obligations.LoadFromHlCell : Prop :=
  ∀ (dst : Reg8) (s : State), s.CanRead [s.pair .hl] →
    (∀ k b1 b2, decodeBytes k (blockOpcode (regCode dst) 6) b1 b2 = .loadAtHl dst) ∧
    exec (.loadAtHl dst) s = .next (s.finished (s.setReg8 dst (s.memRead8 (s.pair .hl))) 1 8)

/-- LD (HL),r stores the register's byte of before the step at HL; 8 cycles, 1 byte (after R192 to R198, whose field order is
PRESUMED, log 10). -/
def Obligations.StoreToHlCell : Prop :=
  ∀ (r : Reg8) (s : State), s.CanWrite [s.pair .hl] →
    (∀ k b1 b2, decodeBytes k (blockOpcode 6 (regCode r)) b1 b2 = .storeAtHl r) ∧
    exec (.storeAtHl r) s = .next (s.finished (s.memWrite8 (s.pair .hl) (s.reg8 r)) 1 8)

/-- After R212 to R217, R219: LD r,d8 copies the immediate byte; 8 cycles, 2 bytes; LD L,d8 is tier 2 (PRESUMED, log 11) and has no
handler when `ADMIT_TIER2` is false. -/
def Obligations.LoadImmediateByte : Prop :=
  ∀ (dst : Reg8) (d8 : Byte) (s : State),
    (∀ b2, decodeBytes true (immOpcode (regCode dst)) d8 b2 = .loadImm8 dst d8) ∧
    (∀ b2, decodeBytes false (immOpcode (regCode dst)) d8 b2 = if dst = .l then .unimplemented 0x2E else .loadImm8 dst d8) ∧
    exec (.loadImm8 dst d8) s = .next (s.finished (s.setReg8 dst d8) 2 8)

/-- R218: LD (HL),d8 stores the immediate byte at HL; 12 cycles, 2 bytes. -/
def Obligations.StoreImmediateByteToHlCell : Prop :=
  ∀ (d8 : Byte) (s : State), s.CanWrite [s.pair .hl] →
    (∀ k b2, decodeBytes k 0x36 d8 b2 = .ldAtHlD8 d8) ∧
    exec (.ldAtHlD8 d8) s = .next (s.finished (s.memWrite8 (s.pair .hl) d8) 2 12)

/-- After R220 to R223: LD (BC),A, LD (DE),A, LD A,(BC), LD A,(DE); 8 cycles, 1 byte; all but the first are tier 2 (PRESUMED, log
11). -/
def Obligations.IndirectThroughBcAndDe : Prop :=
  ∀ s : State,
    (∀ k b1 b2, decodeBytes k 0x02 b1 b2 = .ldAtBcA) ∧
    (∀ b1 b2, decodeBytes true 0x12 b1 b2 = .ldAtDeA ∧ decodeBytes true 0x0A b1 b2 = .ldAAtBc ∧
      decodeBytes true 0x1A b1 b2 = .ldAAtDe) ∧
    (∀ b1 b2, ∀ op ∈ ([0x12, 0x0A, 0x1A] : List Byte), decodeBytes false op b1 b2 = .unimplemented op) ∧
    (s.CanWrite [s.pair .bc] → exec .ldAtBcA s = .next (s.finished (s.memWrite8 (s.pair .bc) s.a) 1 8)) ∧
    (s.CanWrite [s.pair .de] → exec .ldAtDeA s = .next (s.finished (s.memWrite8 (s.pair .de) s.a) 1 8)) ∧
    (s.CanRead [s.pair .bc] → exec .ldAAtBc s = .next (s.finished { s with a := s.memRead8 (s.pair .bc) } 1 8)) ∧
    (s.CanRead [s.pair .de] → exec .ldAAtDe s = .next (s.finished { s with a := s.memRead8 (s.pair .de) } 1 8))

/-- R224 to R227: the access uses HL as it was; then HL goes up or down by 1 modulo 2^16 as a pair; 8 cycles, 1 byte. -/
def Obligations.AutoIncrementAndDecrementLoads : Prop :=
  ∀ s : State,
    (∀ k b1 b2, decodeBytes k 0x22 b1 b2 = .ldAtHlIncA ∧ decodeBytes k 0x2A b1 b2 = .ldAAtHlInc ∧
      decodeBytes k 0x32 b1 b2 = .ldAtHlDecA ∧ decodeBytes k 0x3A b1 b2 = .ldAAtHlDec) ∧
    (s.CanWrite [s.pair .hl] → exec .ldAtHlIncA s =
      .next (s.finished ((s.memWrite8 (s.pair .hl) s.a).setPair .hl (s.pair .hl + 1)) 1 8)) ∧
    (s.CanRead [s.pair .hl] → exec .ldAAtHlInc s =
      .next (s.finished (State.setPair .hl (s.pair .hl + 1) { s with a := s.memRead8 (s.pair .hl) }) 1 8)) ∧
    (s.CanWrite [s.pair .hl] → exec .ldAtHlDecA s =
      .next (s.finished ((s.memWrite8 (s.pair .hl) s.a).setPair .hl (s.pair .hl - 1)) 1 8)) ∧
    (s.CanRead [s.pair .hl] → exec .ldAAtHlDec s =
      .next (s.finished (State.setPair .hl (s.pair .hl - 1) { s with a := s.memRead8 (s.pair .hl) }) 1 8))

/-- R228: the zero-page cell of an offset byte under either setting of `ZP_EXT`. -/
def Obligations.ZeroPageAddress : Prop :=
  ∀ off : Byte,
    (zeroPage .sext off).toNat = (if off.toNat ≤ 0x7F then 0xFF00 + off.toNat else 0xFE00 + off.toNat) ∧
    (zeroPage .zext off).toNat = 0xFF00 + off.toNat

/-- R229 to R232: the zero-page loads, through the immediate offset (12 cycles, 2 bytes) and through C (8 cycles, 1 byte). -/
def Obligations.ZeroPageLoadsAndStores : Prop :=
  ∀ (a8 : Byte) (s : State),
    (∀ k b1 b2, decodeBytes k 0xE0 a8 b2 = .ldhAtA8A a8 ∧ decodeBytes k 0xF0 a8 b2 = .ldhAAtA8 a8 ∧
      decodeBytes k 0xE2 b1 b2 = .ldAtCA ∧ decodeBytes k 0xF2 b1 b2 = .ldAAtC) ∧
    (s.CanWrite [zeroPage s.cfg.zpExt a8] →
      exec (.ldhAtA8A a8) s = .next (s.finished (s.memWrite8 (zeroPage s.cfg.zpExt a8) s.a) 2 12)) ∧
    (s.CanRead [zeroPage s.cfg.zpExt a8] →
      exec (.ldhAAtA8 a8) s = .next (s.finished { s with a := s.memRead8 (zeroPage s.cfg.zpExt a8) } 2 12)) ∧
    (s.CanWrite [zeroPage s.cfg.zpExt s.c] →
      exec .ldAtCA s = .next (s.finished (s.memWrite8 (zeroPage s.cfg.zpExt s.c) s.a) 1 8)) ∧
    (s.CanRead [zeroPage s.cfg.zpExt s.c] →
      exec .ldAAtC s = .next (s.finished { s with a := s.memRead8 (zeroPage s.cfg.zpExt s.c) } 1 8))

/-- R233, R234: LD (a16),A and LD A,(a16), the address low byte first; 16 cycles, 3 bytes. -/
def Obligations.AbsoluteLoadAndStore : Prop :=
  ∀ (lo hi : Byte) (s : State),
    (∀ k, decodeBytes k 0xEA lo hi = .ldAtA16A (wordOf hi lo) ∧ decodeBytes k 0xFA lo hi = .ldAAtA16 (wordOf hi lo)) ∧
    (s.CanWrite [wordOf hi lo] →
      exec (.ldAtA16A (wordOf hi lo)) s = .next (s.finished (s.memWrite8 (wordOf hi lo) s.a) 3 16)) ∧
    (s.CanRead [wordOf hi lo] →
      exec (.ldAAtA16 (wordOf hi lo)) s = .next (s.finished { s with a := s.memRead8 (wordOf hi lo) } 3 16))

/-! 16-bit loads -/

/-- After R251 to R254: LD rr,d16; the second byte goes to the low register, the third to the high one; 12 cycles, 3 bytes; all but
LD BC,d16 are tier 2 (PRESUMED, log 11). -/
def Obligations.LoadImmediateWord : Prop :=
  ∀ (lo hi : Byte) (s : State),
    (∀ k, decodeBytes k 0x01 lo hi = .ldBcD16 (wordOf hi lo)) ∧
    decodeBytes true 0x11 lo hi = .ldDeD16 (wordOf hi lo) ∧ decodeBytes true 0x21 lo hi = .ldHlD16 (wordOf hi lo) ∧
    decodeBytes true 0x31 lo hi = .ldSpD16 (wordOf hi lo) ∧
    (∀ op ∈ ([0x11, 0x21, 0x31] : List Byte), decodeBytes false op lo hi = .unimplemented op) ∧
    exec (.ldBcD16 (wordOf hi lo)) s = .next (s.finished { s with b := hi, c := lo } 3 12) ∧
    exec (.ldDeD16 (wordOf hi lo)) s = .next (s.finished { s with d := hi, e := lo } 3 12) ∧
    exec (.ldHlD16 (wordOf hi lo)) s = .next (s.finished { s with h := hi, l := lo } 3 12) ∧
    exec (.ldSpD16 (wordOf hi lo)) s = .next (s.finished { s with sp := wordOf hi lo } 3 12)

/-- After R255: LD (a16),SP stores SP low byte first at the immediate address; 20 cycles, 3 bytes; tier 2 (PRESUMED, log 11). -/
def Obligations.StoreStackPointer : Prop :=
  ∀ (lo hi : Byte) (s : State),
    decodeBytes true 0x08 lo hi = .ldAtA16Sp (wordOf hi lo) ∧ decodeBytes false 0x08 lo hi = .unimplemented 0x08 ∧
    (s.CanWrite [wordOf hi lo, wordOf hi lo + 1] → exec (.ldAtA16Sp (wordOf hi lo)) s =
      .next (s.finished ((s.memWrite8 (wordOf hi lo) (lo8 s.sp)).memWrite8 (wordOf hi lo + 1) (hi8 s.sp)) 3 20))

/-- R90, R256: LD HL,SP+r8 puts SP plus the signed offset, modulo 2^16, in HL and changes nothing else but PC and `clk`; 12 cycles,
2 bytes. -/
def Obligations.LoadHlFromStackPointerPlusOffset : Prop :=
  ∀ (r8 : Byte) (s : State), (∀ k b2, decodeBytes k 0xF8 r8 b2 = .ldHlSpR8 r8) ∧
    ∃ w : Word, ((w.toNat : Int) = ((s.sp.toNat : Int) + r8.toInt) % 65536) ∧
      exec (.ldHlSpR8 r8) s = .next (s.finished { s with h := hi8 w, l := lo8 w } 2 12)

/-- R257: LD SP,HL; 8 cycles, 1 byte. -/
def Obligations.LoadStackPointerFromHl : Prop :=
  ∀ s : State, (∀ k b1 b2, decodeBytes k 0xF9 b1 b2 = .ldSpHl) ∧
    exec .ldSpHl s = .next (s.finished { s with sp := s.pair .hl } 1 8)

/-! Stack -/

/-- R270, R272 to R275: PUSH rr takes 2 from SP modulo 2^16, then stores the low register at the new SP and the high one above it;
16 cycles, 1 byte. -/
def Obligations.PushStoresThePair : Prop :=
  ∀ (p : Pair) (s : State), s.CanWrite [s.sp - 2, s.sp - 1] →
    (∀ k b1 b2, decodeBytes k (pushOpcode p) b1 b2 = .push p) ∧
    exec (.push p) s = .next (s.finished
      (State.memWrite8 (s.sp - 1) (hi8 (s.pair p)) (State.memWrite8 (s.sp - 2) (lo8 (s.pair p)) { s with sp := s.sp - 2 })) 1 16)

/-- R271, R276 to R279: POP rr loads the pair from SP, low byte first, and adds 2 to SP modulo 2^16; POP AF keeps all 8 bits of F;
12 cycles, 1 byte. -/
def Obligations.PopLoadsThePair : Prop :=
  ∀ s : State, s.CanRead [s.sp, s.sp + 1] →
    let lo := s.memRead8 s.sp
    let hi := s.memRead8 (s.sp + 1)
    (∀ (p : Pair) k b1 b2, decodeBytes k (popOpcode p) b1 b2 = .pop p) ∧
    exec (.pop .bc) s = .next (s.finished { s with b := hi, c := lo, sp := s.sp + 2 } 1 12) ∧
    exec (.pop .de) s = .next (s.finished { s with d := hi, e := lo, sp := s.sp + 2 } 1 12) ∧
    exec (.pop .hl) s = .next (s.finished { s with h := hi, l := lo, sp := s.sp + 2 } 1 12) ∧
    exec (.pop .af) s = .next (s.finished { s with a := hi, f := lo, sp := s.sp + 2 } 1 12)

/-- After R280 (the spec's derivation from R270 and R271): PUSH P then POP Q moves the value, restores SP, leaves the two bytes
little-endian below SP and costs 28 cycles and 2 bytes, provided the POP's opcode is not one of the bytes written. -/
def Obligations.PushThenPopTransfersTheValue : Prop :=
  ∀ (p q : Pair) (s : State), s.Running → s.mem.wf = true → s.cfg.memmap = .flat →
    s.memRead8 s.pc = pushOpcode p → s.memRead8 (s.pc + 1) = popOpcode q → s.pc + 1 ≠ s.sp - 2 → s.pc + 1 ≠ s.sp - 1 →
    ∃ t u, step s = .next t ∧ step t = .next u ∧ u.pair q = s.pair p ∧ u.sp = s.sp ∧
      u.memRead8 (s.sp - 2) = lo8 (s.pair p) ∧ u.memRead8 (s.sp - 1) = hi8 (s.pair p) ∧
      u.clk = s.clk + 28 + 2 * s.cfg.tickBias.val ∧ u.pc = s.pc + 2 ∧ u.Running

/-! Frames -/

/-- The instructions that load one byte register and have no post-effect change that register, PC and `clk` at most (and the latch,
where an access is refused): every other register, F, SP, the parameters and every memory byte stay. -/
def Obligations.ByteRegisterLoadFrame : Prop :=
  ∀ (i : Instr) (dst : Reg8) (s t : State),
    ((∃ r, i = .regMove dst r) ∨ i = .loadAtHl dst ∨ (∃ v, i = .loadImm8 dst v) ∨
      (dst = .a ∧ (i = .ldAAtBc ∨ i = .ldAAtDe ∨ (∃ v, i = .ldhAAtA8 v) ∨ i = .ldAAtC ∨ ∃ w, i = .ldAAtA16 w))) →
    exec i s = .next t →
    (∀ r, r ≠ dst → t.reg8 r = s.reg8 r) ∧ t.f = s.f ∧ t.sp = s.sp ∧ t.cfg = s.cfg ∧
    (t.fault = s.fault ∨ ∃ a k, t = s.raise (.invalidAddress a k)) ∧ ∀ a, t.cell a = s.cell a

/-- The instructions that store and have no post-effect change no register but PC (and SP for PUSH), `clk`, the latch where an
access is refused, and no memory byte but the byte or word at the address they store to. -/
def Obligations.StoreFrame : Prop :=
  ∀ (i : Instr) (s t : State), s.mem.wf = true →
    ((∃ r, i = .storeAtHl r) ∨ (∃ v, i = .ldAtHlD8 v) ∨ i = .ldAtBcA ∨ i = .ldAtDeA ∨ (∃ v, i = .ldhAtA8A v) ∨ i = .ldAtCA ∨
      (∃ w, i = .ldAtA16A w) ∨ (∃ w, i = .ldAtA16Sp w) ∨ ∃ p, i = .push p) →
    exec i s = .next t →
    (∀ r, t.reg8 r = s.reg8 r) ∧ t.f = s.f ∧ ((∀ p, i ≠ .push p) → t.sp = s.sp) ∧ t.cfg = s.cfg ∧
    (t.fault = s.fault ∨ ∃ a k, t = s.raise (.invalidAddress a k)) ∧
    (∀ w, byteStoredTo i s = some w → ∀ a, a ≠ w → t.cell a = s.cell a) ∧
    (∀ w, wordStoredTo i s = some w → ∀ a, a ≠ w → a ≠ w + 1 → t.cell a = s.cell a) ∧
    (byteStoredTo i s ≠ none ∨ wordStoredTo i s ≠ none)

/-- LD (HL+),A and LD (HL-),A change H and L (the post-effect), PC and the byte at HL; LD A,(HL+) and LD A,(HL-) change A, H, L and
PC; nothing else but `clk` (and the latch, where an access is refused). -/
def Obligations.AutoIncrementFrame : Prop :=
  ∀ (i : Instr) (s t : State), s.mem.wf = true →
    (i = .ldAtHlIncA ∨ i = .ldAtHlDecA ∨ i = .ldAAtHlInc ∨ i = .ldAAtHlDec) → exec i s = .next t →
    t.f = s.f ∧ t.b = s.b ∧ t.c = s.c ∧ t.d = s.d ∧ t.e = s.e ∧ t.sp = s.sp ∧ t.cfg = s.cfg ∧
    (t.fault = s.fault ∨ ∃ a k, t = s.raise (.invalidAddress a k)) ∧
    ((i = .ldAtHlIncA ∨ i = .ldAtHlDecA) → t.a = s.a ∧ ∀ a, a ≠ s.pair .hl → t.cell a = s.cell a) ∧
    ((i = .ldAAtHlInc ∨ i = .ldAAtHlDec) → ∀ a, t.cell a = s.cell a)

/-- The 16-bit loads into a register and POP change their destination (and SP for POP), PC and `clk` (and the latch, where an access
is refused); F changes only by POP AF; every memory byte stays. -/
def Obligations.WordRegisterLoadFrame : Prop :=
  ∀ (i : Instr) (s t : State), exec i s = .next t →
    ((∃ w, i = .ldBcD16 w) ∨ i = .popBc → t.a = s.a ∧ t.f = s.f ∧ t.d = s.d ∧ t.e = s.e ∧ t.h = s.h ∧ t.l = s.l) ∧
    ((∃ w, i = .ldDeD16 w) ∨ i = .popDe → t.a = s.a ∧ t.f = s.f ∧ t.b = s.b ∧ t.c = s.c ∧ t.h = s.h ∧ t.l = s.l) ∧
    ((∃ w, i = .ldHlD16 w) ∨ i = .popHl ∨ (∃ v, i = .ldHlSpR8 v) →
      t.a = s.a ∧ t.f = s.f ∧ t.b = s.b ∧ t.c = s.c ∧ t.d = s.d ∧ t.e = s.e) ∧
    (i = .popAf → t.b = s.b ∧ t.c = s.c ∧ t.d = s.d ∧ t.e = s.e ∧ t.h = s.h ∧ t.l = s.l) ∧
    ((∃ w, i = .ldSpD16 w) ∨ i = .ldSpHl → (∀ r, t.reg8 r = s.reg8 r) ∧ t.f = s.f) ∧
    ((∃ w, i = .ldBcD16 w) ∨ (∃ w, i = .ldDeD16 w) ∨ (∃ w, i = .ldHlD16 w) ∨ (∃ v, i = .ldHlSpR8 v) → t.sp = s.sp) ∧
    ((∃ w, i = .ldBcD16 w) ∨ (∃ w, i = .ldDeD16 w) ∨ (∃ w, i = .ldHlD16 w) ∨ (∃ v, i = .ldHlSpR8 v) ∨
      (∃ w, i = .ldSpD16 w) ∨ i = .ldSpHl ∨ (∃ p, i = .pop p) → t.cfg = s.cfg ∧
      (t.fault = s.fault ∨ ∃ a k, t = s.raise (.invalidAddress a k)) ∧ ∀ a, t.cell a = s.cell a)

/-- Over all instructions: a memory byte outside the byte or word the instruction stores to reads as before; an instruction that
stores nothing leaves every byte. -/
def Obligations.MemoryChangesOnlyWhereStored : Prop :=
  ∀ (i : Instr) (s t : State) (a : Word), s.mem.wf = true → exec i s = .next t →
    byteStoredTo i s ≠ some a → wordStoredTo i s ≠ some a → wordStoredTo i s ≠ some (a - 1) → t.cell a = s.cell a

/-- After R25: SP changes only by PUSH, POP, LD SP,HL and LD SP,d16. -/
def Obligations.StackPointerWriters : Prop :=
  ∀ (i : Instr) (s t : State), exec i s = .next t → t.sp ≠ s.sp →
    (∃ p, i = .push p) ∨ (∃ p, i = .pop p) ∨ i = .ldSpHl ∨ ∃ w, i = .ldSpD16 w

/-! The fault latch and the step -/

/-- R290: a byte with no handler latches UnimplementedOpcode with the byte and PC, and nothing else changes (the term that carries
such a byte is the model's form, log 7). -/
def Obligations.UnimplementedByteLatches : Prop :=
  ∀ (op : Byte) (s : State), decodable s.cfg.admitTier2 op = false →
    exec (.unimplemented op) s = .next { s with fault := some (.unimplementedOpcode op s.pc) } ∧
    (s.Running → s.CanRead [s.pc] → s.memRead8 s.pc = op →
      step s = .next { s with fault := some (.unimplementedOpcode op s.pc) })

/-- R131: while the latch is set no step is taken; otherwise a byte with no handler latches, and a decodable one runs the
instruction that the bytes at PC decode to, and nothing is added around it. -/
def Obligations.StepRunsTheDecodedInstruction : Prop :=
  (∀ (s t : State), s.fault ≠ none → step s ≠ .next t) ∧
  (∀ (s : State), s.Running → s.CanRead [s.pc] → decodable s.cfg.admitTier2 (s.memRead8 s.pc) = false →
    step s = .next (s.raise (.unimplementedOpcode (s.memRead8 s.pc) s.pc))) ∧
  (∀ (s : State) (i : Instr) (rest : List Byte), s.Running → s.CanRead [s.pc] → s.CanRead (immediateCells s) →
    decodable s.cfg.admitTier2 (s.memRead8 s.pc) = true →
    decode s.cfg.admitTier2 [s.memRead8 s.pc, s.memRead8 (s.pc + 1), s.memRead8 (s.pc + 2)] = .ok (i, rest) →
    i.wellFormed s.cfg.admitTier2 = true ∧ step s = exec i s)

/-- R19: a running core's step has exactly one outcome, and it is a next state: no refusal, no stop. -/
def Obligations.RunningStepHasANextState : Prop :=
  ∀ s : State, s.Running → ∃ t, step s = .next t

/-- R37: the latch is empty after reset, only a failing step of a running core sets it, and once it is set the core takes no step:
no run of any length changes a latched state. (That `step` then answers a fault outcome is the model's form, log 6.) -/
def Obligations.LatchIsStickyAndStopsTheCore : Prop :=
  (∀ cfg init, (State.ofInit cfg init).fault = none) ∧
  (∀ s t : State, step s = .next t → s.fault = none) ∧
  (∀ (k : Nat) (s t : State), s.fault ≠ none → Host.Core.run core k s = .next t → k = 0 ∧ t = s)

/-- R313: the whole effect of a failing step is the latch. -/
def Obligations.FailingStepChangesOnlyTheLatch : Prop :=
  ∀ (s t : State) (r : FaultRecord), step s = .next t → t.fault = some r →
    t.a = s.a ∧ t.f = s.f ∧ t.b = s.b ∧ t.c = s.c ∧ t.d = s.d ∧ t.e = s.e ∧ t.h = s.h ∧ t.l = s.l ∧ t.sp = s.sp ∧ t.pc = s.pc ∧
    t.mem = s.mem ∧ t.clk = s.clk ∧ t.cfg = s.cfg

/-- After R315: its five cases in order, over any memory policy of the model (log 5); a word's low byte comes before its high byte,
at the wrap too (log 9). -/
def Obligations.FirstFailingAccessIsLatched : Prop :=
  ∀ (s : State) (a : Word), s.Running →
    let op := s.memRead8 s.pc
    let i := decodeBytes s.cfg.admitTier2 op (s.memRead8 (s.pc + 1)) (s.memRead8 (s.pc + 2))
    (¬ s.CanRead [s.pc] → step s = .next (s.raise (.invalidAddress s.pc .fetch))) ∧
    (s.CanRead [s.pc] → decodable s.cfg.admitTier2 op = false → step s = .next (s.raise (.unimplementedOpcode op s.pc))) ∧
    (s.CanRead [s.pc] → decodable s.cfg.admitTier2 op = true →
      (immediateCells s).find? (fun x => !admitsRead s.cfg.memmap x) = some a →
      step s = .next (s.raise (.invalidAddress a .fetch))) ∧
    (s.CanRead [s.pc] → decodable s.cfg.admitTier2 op = true → s.CanRead (immediateCells s) →
      (accessCells (byteLoadedFrom i s) (wordLoadedFrom i s)).find? (fun x => !admitsRead s.cfg.memmap x) = some a →
      step s = .next (s.raise (.invalidAddress a .read))) ∧
    (s.CanRead [s.pc] → decodable s.cfg.admitTier2 op = true → s.CanRead (immediateCells s) →
      s.CanRead (accessCells (byteLoadedFrom i s) (wordLoadedFrom i s)) →
      (accessCells (byteStoredTo i s) (wordStoredTo i s)).find? (fun x => !admitsWrite s.cfg.memmap x) = some a →
      step s = .next (s.raise (.invalidAddress a .write)))

/-- Under FLAT the only condition is UnimplementedOpcode, raised for exactly the bytes with no handler (R311, R315, R318). -/
def Obligations.FlatMemoryFaultsOnlyOnUnimplementedBytes : Prop :=
  ∀ (s t : State), s.cfg.memmap = .flat → step s = .next t →
    (t.fault ≠ none ↔ decodable s.cfg.admitTier2 (s.memRead8 s.pc) = false) ∧
    (∀ r, t.fault = some r → r = .unimplementedOpcode (s.memRead8 s.pc) s.pc)

/-- After R117, and R313 for a failing step (the lengths are R93's, those of the tier-2 rows PRESUMED, log 11): an executed
instruction advances PC by its length modulo 2^16, once; a failing step leaves PC. -/
def Obligations.ProgramCounterAdvancesByTheLength : Prop :=
  ∀ s t : State, step s = .next t →
    (t.fault = none → t.pc = s.pc + BitVec.ofNat 16 (lengthOf (s.memRead8 s.pc))) ∧ (t.fault ≠ none → t.pc = s.pc)

/-- After R118, and R313 for a failing step (the costs are the Cycles column of R91, those of the tier-2 rows PRESUMED, log 11; 0xEA
as log 14 has it): an executed instruction of cost n adds n + `TICK_BIAS` to `clk`; a failing step ticks nothing. -/
def Obligations.ClockAdvancesByTheCost : Prop :=
  ∀ s t : State, step s = .next t →
    (t.fault = none → t.clk = s.clk + costOf (s.memRead8 s.pc) + s.cfg.tickBias.val) ∧ (t.fault ≠ none → t.clk = s.clk)

/-- `clk` is read by no rule (R36): a step commutes with adding ticks to `clk`. -/
def Obligations.ClockIsReadByNoInstruction : Prop :=
  ∀ (s t : State) (k : Nat), step s = .next t → step { s with clk := s.clk + k } = .next { t with clk := t.clk + k }

/-- After R23 (the spec's derivation): the only instruction that writes F is POP AF, and the only one that reads it is PUSH AF. From
states that differ in F alone any other instruction does the same and leaves F as it found it; a POP AF that completes does the
same, F included, and one whose read is refused leaves F as it found it. -/
def Obligations.FIsReadByPushAfAndWrittenByPopAfOnly : Prop :=
  (∀ (i : Instr) (s t : State), i ≠ .popAf → exec i s = .next t → t.f = s.f) ∧
  (∀ (i : Instr) (s t : State) (v : Byte), i ≠ .pushAf → i ≠ .popAf → exec i s = .next t →
    exec i { s with f := v } = .next { t with f := v }) ∧
  (∀ (s t : State) (v : Byte), exec .popAf s = .next t → s.CanRead [s.sp, s.sp + 1] → exec .popAf { s with f := v } = .next t) ∧
  (∀ (s t : State) (v : Byte), exec .popAf s = .next t → ¬ s.CanRead [s.sp, s.sp + 1] →
    exec .popAf { s with f := v } = .next { t with f := v })

/-- The parameters of R8 are supplied at reset and no step writes them (R353, the model's field, log 4). -/
def Obligations.StepKeepsTheParameters : Prop :=
  ∀ s t : State, step s = .next t → t.cfg = s.cfg

/-- Every step keeps memory canonical and the latch truthful: a latched record names an undecodable byte at PC or an access the
policy refuses (R311, R312, R313). -/
def Obligations.StepKeepsTheInvariant : Prop :=
  ∀ s t : State, s.Inv → step s = .next t → t.Inv

/-- After R67 (the spec's derivation), for every instruction and so for every store: the step runs the instruction read before its
first write, whatever it stores, its own bytes included; afterwards every address reads the byte stored there or the byte of before;
and the very next decode sees those bytes, at the opcode and at both immediates. -/
def Obligations.NextDecodeSeesTheStoredOpcode : Prop :=
  ∀ s : State, s.Running → s.mem.wf = true → s.cfg.memmap = .flat → decodable s.cfg.admitTier2 (s.memRead8 s.pc) = true →
    let i := decodeBytes s.cfg.admitTier2 (s.memRead8 s.pc) (s.memRead8 (s.pc + 1)) (s.memRead8 (s.pc + 2))
    let pc' := s.pc + BitVec.ofNat 16 (lengthOf (s.memRead8 s.pc))
    ∃ t, step s = .next t ∧ exec i s = .next t ∧ t.Running ∧ t.pc = pc' ∧
      (∀ a, t.memRead8 a = byteAfter i s a) ∧
      decodeNext t = .ok (decodeBytes s.cfg.admitTier2 (byteAfter i s pc') (byteAfter i s (pc' + 1)) (byteAfter i s (pc' + 2)))

/-- The host's placement: the step after placing a table word runs the instruction the decoder reads from it (log 3). -/
def Obligations.PlacedWordRunsNext : Prop :=
  ∀ (s : State) (nbits w : Nat) (i : Instr), s.Running → s.mem.wf = true → s.cfg = Config.hardware →
    decodeTableWord nbits w = some i → step (s.withFetchWord nbits w) = exec i (s.withFetchWord nbits w)

/-! Runs -/

/-- R314: faults are precise: a run that ends latched is a run whose every instruction completed, followed by the latch alone. -/
def Obligations.FaultedRunIsACompletedRunPlusTheLatch : Prop :=
  ∀ (k : Nat) (s t : State) (r : FaultRecord), s.Running → Host.Core.run core k s = .next t → t.fault = some r →
    ∃ (j : Nat) (u : State), k = j + 1 ∧ SafeRun j s u ∧ t = u.raise r

/-- After R132: under FLAT a run goes on for as long as it is asked to, or it meets a byte with no handler and ends there. -/
def Obligations.FlatRunGoesOnOrMeetsAnUnimplementedByte : Prop :=
  ∀ (k : Nat) (s : State), s.Running → s.cfg.memmap = .flat →
    (∃ t, SafeRun k s t) ∨
    ∃ (j : Nat) (u : State), j < k ∧ SafeRun j s u ∧ decodable u.cfg.admitTier2 (u.memRead8 u.pc) = false ∧
      step u = .next (u.raise (.unimplementedOpcode (u.memRead8 u.pc) u.pc))

/-! The memory policy -/

/-- R51: under FLAT every address admits a read and a write, a read returns the byte last written, and a write changes that byte and
nothing else. -/
def Obligations.FlatMemoryIsPlain : Prop :=
  ∀ (s : State) (a : Word), s.cfg.memmap = .flat → s.mem.wf = true →
    admitsRead s.cfg.memmap a = true ∧ admitsWrite s.cfg.memmap a = true ∧ s.memRead8 a = s.cell a ∧
    ∀ (v : Byte) (b : Word), (s.memWrite8 a v).memRead8 b = (if b = a then v else s.memRead8 b) ∧
      s.memWrite8 a v = { s with mem := (s.memWrite8 a v).mem }

/-- What a read returns under a policy other than FLAT (R8, D6): the first window that covers the address says it, and where none
covers it the read returns the cell. The shape of a policy is the model's (log 5), and a free source's byte may be any. -/
def Obligations.PolicyReadsReturnWhatTheFirstWindowSays : Prop :=
  (∀ (s : State) (before after : List Window) (w : Window) (a : Word), s.cfg.memmap = .guarded (before ++ w :: after) →
    (∀ x ∈ before, windowCovers x a = false) → windowCovers w a = true →
    (w.reads = .cell → s.memRead8 a = s.cell a) ∧
    (∀ v, w.reads = .fixed v → s.memRead8 a = v) ∧
    (∀ base, w.reads = .mirror base → s.memRead8 a = s.cell (base + (a - w.first))) ∧
    (∀ k, w.reads = .free k → s.memRead8 a = Config.freeRead k a s.mem)) ∧
  (∀ (s : State) (ws : List Window) (a : Word), s.cfg.memmap = .guarded ws → (∀ x ∈ ws, windowCovers x a = false) →
    s.memRead8 a = s.cell a)
end

