-- ==== Sys2Proof/Laws/Decode.lean ====
section
/-! SUPPORT. The byte-order helpers, and the opcode map against the decodable set. -/

namespace Sys2Proof

/-- `h : l = h * 256 + l` (R9). -/
theorem wordOf_toNat (h l : Byte) : (wordOf h l).toNat = h.toNat * 256 + l.toNat := by
  have hl := l.isLt
  rw [wordOf, BitVec.toNat_append, ← Nat.shiftLeft_add_eq_or_of_lt hl, Nat.shiftLeft_eq]

theorem hi8_toNat (w : Word) : (hi8 w).toNat = w.toNat / 256 := by
  have hw := w.isLt
  simp only [hi8, BitVec.extractLsb'_toNat, Nat.shiftRight_eq_div_pow]
  omega

theorem lo8_toNat (w : Word) : (lo8 w).toNat = w.toNat % 256 := by
  simp [lo8, BitVec.extractLsb'_toNat]

@[simp] theorem hi8_wordOf (h l : Byte) : hi8 (wordOf h l) = h := by
  apply BitVec.eq_of_toNat_eq
  have hl := l.isLt
  rw [hi8_toNat, wordOf_toNat]
  omega

@[simp] theorem lo8_wordOf (h l : Byte) : lo8 (wordOf h l) = l := by
  apply BitVec.eq_of_toNat_eq
  have hl := l.isLt
  rw [lo8_toNat, wordOf_toNat]
  omega

@[simp] theorem wordOf_hi8_lo8 (w : Word) : wordOf (hi8 w) (lo8 w) = w := by
  apply BitVec.eq_of_toNat_eq
  rw [wordOf_toNat, hi8_toNat, lo8_toNat]
  omega

/-- The opcode map has a row for exactly the decodable bytes (R91, R95). -/
theorem findRow_isSome (admitTier2 : Bool) (op : Byte) :
    (findRow admitTier2 op).isSome = decodable admitTier2 op := by
  have key : ∀ k : Bool, ∀ n : Fin 256,
      (findRow k (BitVec.ofFin n)).isSome = decodable k (BitVec.ofFin n) := by decide +kernel
  exact key admitTier2 op.toFin

theorem findRow_of_not_decodable {admitTier2 : Bool} {op : Byte} (h : decodable admitTier2 op = false) :
    findRow admitTier2 op = none := by
  have hs := findRow_isSome admitTier2 op
  rwa [h, Option.isSome_eq_false_iff, Option.isNone_iff_eq_none] at hs

/-- A byte with no handler takes one byte (R290, R97). -/
theorem instrLength_of_not_decodable (admitTier2 : Bool) (op : Byte) (h : decodable admitTier2 op = false) :
    instrLength admitTier2 op = 1 := by
  simp [instrLength, findRow_of_not_decodable h]

/-- A byte with no handler decodes to itself, whatever follows it (R97, R290). -/
theorem decodeBytes_of_not_decodable {admitTier2 : Bool} {op : Byte} (h : decodable admitTier2 op = false)
    (b1 b2 : Byte) : decodeBytes admitTier2 op b1 b2 = .unimplemented op := by
  simp [decodeBytes, findRow_of_not_decodable h]

/-- The length the decoder tells is 1, 2 or 3 (R80). -/
theorem instrLength_bounds (admitTier2 : Bool) (op : Byte) :
    1 ≤ instrLength admitTier2 op ∧ instrLength admitTier2 op ≤ 3 := by
  unfold instrLength
  split
  · rename_i r _
    cases r.format <;> simp [Format.length]
  · simp

end Sys2Proof
end

