-- ==== Sys2Proof/Laws/State.lean ====
section
/-! SUPPORT. One lemma per field per update of State, each tagged simp, so that no proof unfolds a record update. -/

namespace Sys2Proof.Machine

/-! setReg8 -/

@[simp] theorem State.setReg8_f (r : Reg8) (v : Byte) (s : State) : (s.setReg8 r v).f = s.f := by cases r <;> rfl
@[simp] theorem State.setReg8_sp (r : Reg8) (v : Byte) (s : State) : (s.setReg8 r v).sp = s.sp := by cases r <;> rfl
@[simp] theorem State.setReg8_pc (r : Reg8) (v : Byte) (s : State) : (s.setReg8 r v).pc = s.pc := by cases r <;> rfl
@[simp] theorem State.setReg8_mem (r : Reg8) (v : Byte) (s : State) : (s.setReg8 r v).mem = s.mem := by cases r <;> rfl
@[simp] theorem State.setReg8_clk (r : Reg8) (v : Byte) (s : State) : (s.setReg8 r v).clk = s.clk := by cases r <;> rfl
@[simp] theorem State.setReg8_fault (r : Reg8) (v : Byte) (s : State) : (s.setReg8 r v).fault = s.fault := by cases r <;> rfl
@[simp] theorem State.setReg8_cfg (r : Reg8) (v : Byte) (s : State) : (s.setReg8 r v).cfg = s.cfg := by cases r <;> rfl
@[simp] theorem State.setReg8_same (r : Reg8) (v : Byte) (s : State) : (s.setReg8 r v).reg8 r = v := by cases r <;> rfl
@[simp] theorem State.setReg8_a_a (v : Byte) (s : State) : (s.setReg8 .a v).a = v := rfl
@[simp] theorem State.setReg8_a_b (v : Byte) (s : State) : (s.setReg8 .a v).b = s.b := rfl
@[simp] theorem State.setReg8_a_c (v : Byte) (s : State) : (s.setReg8 .a v).c = s.c := rfl
@[simp] theorem State.setReg8_a_d (v : Byte) (s : State) : (s.setReg8 .a v).d = s.d := rfl
@[simp] theorem State.setReg8_a_e (v : Byte) (s : State) : (s.setReg8 .a v).e = s.e := rfl
@[simp] theorem State.setReg8_a_h (v : Byte) (s : State) : (s.setReg8 .a v).h = s.h := rfl
@[simp] theorem State.setReg8_a_l (v : Byte) (s : State) : (s.setReg8 .a v).l = s.l := rfl
@[simp] theorem State.setReg8_b_a (v : Byte) (s : State) : (s.setReg8 .b v).a = s.a := rfl
@[simp] theorem State.setReg8_b_b (v : Byte) (s : State) : (s.setReg8 .b v).b = v := rfl
@[simp] theorem State.setReg8_b_c (v : Byte) (s : State) : (s.setReg8 .b v).c = s.c := rfl
@[simp] theorem State.setReg8_b_d (v : Byte) (s : State) : (s.setReg8 .b v).d = s.d := rfl
@[simp] theorem State.setReg8_b_e (v : Byte) (s : State) : (s.setReg8 .b v).e = s.e := rfl
@[simp] theorem State.setReg8_b_h (v : Byte) (s : State) : (s.setReg8 .b v).h = s.h := rfl
@[simp] theorem State.setReg8_b_l (v : Byte) (s : State) : (s.setReg8 .b v).l = s.l := rfl
@[simp] theorem State.setReg8_c_a (v : Byte) (s : State) : (s.setReg8 .c v).a = s.a := rfl
@[simp] theorem State.setReg8_c_b (v : Byte) (s : State) : (s.setReg8 .c v).b = s.b := rfl
@[simp] theorem State.setReg8_c_c (v : Byte) (s : State) : (s.setReg8 .c v).c = v := rfl
@[simp] theorem State.setReg8_c_d (v : Byte) (s : State) : (s.setReg8 .c v).d = s.d := rfl
@[simp] theorem State.setReg8_c_e (v : Byte) (s : State) : (s.setReg8 .c v).e = s.e := rfl
@[simp] theorem State.setReg8_c_h (v : Byte) (s : State) : (s.setReg8 .c v).h = s.h := rfl
@[simp] theorem State.setReg8_c_l (v : Byte) (s : State) : (s.setReg8 .c v).l = s.l := rfl
@[simp] theorem State.setReg8_d_a (v : Byte) (s : State) : (s.setReg8 .d v).a = s.a := rfl
@[simp] theorem State.setReg8_d_b (v : Byte) (s : State) : (s.setReg8 .d v).b = s.b := rfl
@[simp] theorem State.setReg8_d_c (v : Byte) (s : State) : (s.setReg8 .d v).c = s.c := rfl
@[simp] theorem State.setReg8_d_d (v : Byte) (s : State) : (s.setReg8 .d v).d = v := rfl
@[simp] theorem State.setReg8_d_e (v : Byte) (s : State) : (s.setReg8 .d v).e = s.e := rfl
@[simp] theorem State.setReg8_d_h (v : Byte) (s : State) : (s.setReg8 .d v).h = s.h := rfl
@[simp] theorem State.setReg8_d_l (v : Byte) (s : State) : (s.setReg8 .d v).l = s.l := rfl
@[simp] theorem State.setReg8_e_a (v : Byte) (s : State) : (s.setReg8 .e v).a = s.a := rfl
@[simp] theorem State.setReg8_e_b (v : Byte) (s : State) : (s.setReg8 .e v).b = s.b := rfl
@[simp] theorem State.setReg8_e_c (v : Byte) (s : State) : (s.setReg8 .e v).c = s.c := rfl
@[simp] theorem State.setReg8_e_d (v : Byte) (s : State) : (s.setReg8 .e v).d = s.d := rfl
@[simp] theorem State.setReg8_e_e (v : Byte) (s : State) : (s.setReg8 .e v).e = v := rfl
@[simp] theorem State.setReg8_e_h (v : Byte) (s : State) : (s.setReg8 .e v).h = s.h := rfl
@[simp] theorem State.setReg8_e_l (v : Byte) (s : State) : (s.setReg8 .e v).l = s.l := rfl
@[simp] theorem State.setReg8_h_a (v : Byte) (s : State) : (s.setReg8 .h v).a = s.a := rfl
@[simp] theorem State.setReg8_h_b (v : Byte) (s : State) : (s.setReg8 .h v).b = s.b := rfl
@[simp] theorem State.setReg8_h_c (v : Byte) (s : State) : (s.setReg8 .h v).c = s.c := rfl
@[simp] theorem State.setReg8_h_d (v : Byte) (s : State) : (s.setReg8 .h v).d = s.d := rfl
@[simp] theorem State.setReg8_h_e (v : Byte) (s : State) : (s.setReg8 .h v).e = s.e := rfl
@[simp] theorem State.setReg8_h_h (v : Byte) (s : State) : (s.setReg8 .h v).h = v := rfl
@[simp] theorem State.setReg8_h_l (v : Byte) (s : State) : (s.setReg8 .h v).l = s.l := rfl
@[simp] theorem State.setReg8_l_a (v : Byte) (s : State) : (s.setReg8 .l v).a = s.a := rfl
@[simp] theorem State.setReg8_l_b (v : Byte) (s : State) : (s.setReg8 .l v).b = s.b := rfl
@[simp] theorem State.setReg8_l_c (v : Byte) (s : State) : (s.setReg8 .l v).c = s.c := rfl
@[simp] theorem State.setReg8_l_d (v : Byte) (s : State) : (s.setReg8 .l v).d = s.d := rfl
@[simp] theorem State.setReg8_l_e (v : Byte) (s : State) : (s.setReg8 .l v).e = s.e := rfl
@[simp] theorem State.setReg8_l_h (v : Byte) (s : State) : (s.setReg8 .l v).h = s.h := rfl
@[simp] theorem State.setReg8_l_l (v : Byte) (s : State) : (s.setReg8 .l v).l = v := rfl

/-! setFByte -/

@[simp] theorem State.setFByte_a (v : Byte) (s : State) : (s.setFByte v).a = s.a := rfl
@[simp] theorem State.setFByte_b (v : Byte) (s : State) : (s.setFByte v).b = s.b := rfl
@[simp] theorem State.setFByte_c (v : Byte) (s : State) : (s.setFByte v).c = s.c := rfl
@[simp] theorem State.setFByte_d (v : Byte) (s : State) : (s.setFByte v).d = s.d := rfl
@[simp] theorem State.setFByte_e (v : Byte) (s : State) : (s.setFByte v).e = s.e := rfl
@[simp] theorem State.setFByte_h (v : Byte) (s : State) : (s.setFByte v).h = s.h := rfl
@[simp] theorem State.setFByte_l (v : Byte) (s : State) : (s.setFByte v).l = s.l := rfl
@[simp] theorem State.setFByte_sp (v : Byte) (s : State) : (s.setFByte v).sp = s.sp := rfl
@[simp] theorem State.setFByte_pc (v : Byte) (s : State) : (s.setFByte v).pc = s.pc := rfl
@[simp] theorem State.setFByte_mem (v : Byte) (s : State) : (s.setFByte v).mem = s.mem := rfl
@[simp] theorem State.setFByte_clk (v : Byte) (s : State) : (s.setFByte v).clk = s.clk := rfl
@[simp] theorem State.setFByte_fault (v : Byte) (s : State) : (s.setFByte v).fault = s.fault := rfl
@[simp] theorem State.setFByte_cfg (v : Byte) (s : State) : (s.setFByte v).cfg = s.cfg := rfl
@[simp] theorem State.setFByte_f_eq (v : Byte) (s : State) : (s.setFByte v).f = v := rfl
@[simp] theorem State.setFByte_reg8 (v : Byte) (s : State) : (s.setFByte v).reg8 = s.reg8 := by funext r; cases r <;> rfl

/-! setPair -/

@[simp] theorem State.setPair_sp (p : Pair) (w : Word) (s : State) : (s.setPair p w).sp = s.sp := by cases p <;> rfl
@[simp] theorem State.setPair_pc (p : Pair) (w : Word) (s : State) : (s.setPair p w).pc = s.pc := by cases p <;> rfl
@[simp] theorem State.setPair_mem (p : Pair) (w : Word) (s : State) : (s.setPair p w).mem = s.mem := by cases p <;> rfl
@[simp] theorem State.setPair_clk (p : Pair) (w : Word) (s : State) : (s.setPair p w).clk = s.clk := by cases p <;> rfl
@[simp] theorem State.setPair_fault (p : Pair) (w : Word) (s : State) : (s.setPair p w).fault = s.fault := by cases p <;> rfl
@[simp] theorem State.setPair_cfg (p : Pair) (w : Word) (s : State) : (s.setPair p w).cfg = s.cfg := by cases p <;> rfl
@[simp] theorem State.setPair_af_a (w : Word) (s : State) : (s.setPair .af w).a = hi8 w := rfl
@[simp] theorem State.setPair_af_f (w : Word) (s : State) : (s.setPair .af w).f = lo8 w := rfl
@[simp] theorem State.setPair_af_b (w : Word) (s : State) : (s.setPair .af w).b = s.b := rfl
@[simp] theorem State.setPair_af_c (w : Word) (s : State) : (s.setPair .af w).c = s.c := rfl
@[simp] theorem State.setPair_af_d (w : Word) (s : State) : (s.setPair .af w).d = s.d := rfl
@[simp] theorem State.setPair_af_e (w : Word) (s : State) : (s.setPair .af w).e = s.e := rfl
@[simp] theorem State.setPair_af_h (w : Word) (s : State) : (s.setPair .af w).h = s.h := rfl
@[simp] theorem State.setPair_af_l (w : Word) (s : State) : (s.setPair .af w).l = s.l := rfl
@[simp] theorem State.setPair_bc_a (w : Word) (s : State) : (s.setPair .bc w).a = s.a := rfl
@[simp] theorem State.setPair_bc_f (w : Word) (s : State) : (s.setPair .bc w).f = s.f := rfl
@[simp] theorem State.setPair_bc_b (w : Word) (s : State) : (s.setPair .bc w).b = hi8 w := rfl
@[simp] theorem State.setPair_bc_c (w : Word) (s : State) : (s.setPair .bc w).c = lo8 w := rfl
@[simp] theorem State.setPair_bc_d (w : Word) (s : State) : (s.setPair .bc w).d = s.d := rfl
@[simp] theorem State.setPair_bc_e (w : Word) (s : State) : (s.setPair .bc w).e = s.e := rfl
@[simp] theorem State.setPair_bc_h (w : Word) (s : State) : (s.setPair .bc w).h = s.h := rfl
@[simp] theorem State.setPair_bc_l (w : Word) (s : State) : (s.setPair .bc w).l = s.l := rfl
@[simp] theorem State.setPair_de_a (w : Word) (s : State) : (s.setPair .de w).a = s.a := rfl
@[simp] theorem State.setPair_de_f (w : Word) (s : State) : (s.setPair .de w).f = s.f := rfl
@[simp] theorem State.setPair_de_b (w : Word) (s : State) : (s.setPair .de w).b = s.b := rfl
@[simp] theorem State.setPair_de_c (w : Word) (s : State) : (s.setPair .de w).c = s.c := rfl
@[simp] theorem State.setPair_de_d (w : Word) (s : State) : (s.setPair .de w).d = hi8 w := rfl
@[simp] theorem State.setPair_de_e (w : Word) (s : State) : (s.setPair .de w).e = lo8 w := rfl
@[simp] theorem State.setPair_de_h (w : Word) (s : State) : (s.setPair .de w).h = s.h := rfl
@[simp] theorem State.setPair_de_l (w : Word) (s : State) : (s.setPair .de w).l = s.l := rfl
@[simp] theorem State.setPair_hl_a (w : Word) (s : State) : (s.setPair .hl w).a = s.a := rfl
@[simp] theorem State.setPair_hl_f (w : Word) (s : State) : (s.setPair .hl w).f = s.f := rfl
@[simp] theorem State.setPair_hl_b (w : Word) (s : State) : (s.setPair .hl w).b = s.b := rfl
@[simp] theorem State.setPair_hl_c (w : Word) (s : State) : (s.setPair .hl w).c = s.c := rfl
@[simp] theorem State.setPair_hl_d (w : Word) (s : State) : (s.setPair .hl w).d = s.d := rfl
@[simp] theorem State.setPair_hl_e (w : Word) (s : State) : (s.setPair .hl w).e = s.e := rfl
@[simp] theorem State.setPair_hl_h (w : Word) (s : State) : (s.setPair .hl w).h = hi8 w := rfl
@[simp] theorem State.setPair_hl_l (w : Word) (s : State) : (s.setPair .hl w).l = lo8 w := rfl

/-! setSp -/

@[simp] theorem State.setSp_a (w : Word) (s : State) : (s.setSp w).a = s.a := rfl
@[simp] theorem State.setSp_f (w : Word) (s : State) : (s.setSp w).f = s.f := rfl
@[simp] theorem State.setSp_b (w : Word) (s : State) : (s.setSp w).b = s.b := rfl
@[simp] theorem State.setSp_c (w : Word) (s : State) : (s.setSp w).c = s.c := rfl
@[simp] theorem State.setSp_d (w : Word) (s : State) : (s.setSp w).d = s.d := rfl
@[simp] theorem State.setSp_e (w : Word) (s : State) : (s.setSp w).e = s.e := rfl
@[simp] theorem State.setSp_h (w : Word) (s : State) : (s.setSp w).h = s.h := rfl
@[simp] theorem State.setSp_l (w : Word) (s : State) : (s.setSp w).l = s.l := rfl
@[simp] theorem State.setSp_pc (w : Word) (s : State) : (s.setSp w).pc = s.pc := rfl
@[simp] theorem State.setSp_mem (w : Word) (s : State) : (s.setSp w).mem = s.mem := rfl
@[simp] theorem State.setSp_clk (w : Word) (s : State) : (s.setSp w).clk = s.clk := rfl
@[simp] theorem State.setSp_fault (w : Word) (s : State) : (s.setSp w).fault = s.fault := rfl
@[simp] theorem State.setSp_cfg (w : Word) (s : State) : (s.setSp w).cfg = s.cfg := rfl
@[simp] theorem State.setSp_sp_eq (w : Word) (s : State) : (s.setSp w).sp = w := rfl
@[simp] theorem State.setSp_reg8 (w : Word) (s : State) : (s.setSp w).reg8 = s.reg8 := by funext r; cases r <;> rfl
@[simp] theorem State.setSp_pair (w : Word) (s : State) : (s.setSp w).pair = s.pair := by funext p; cases p <;> rfl

/-! setPc -/

@[simp] theorem State.setPc_a (w : Word) (s : State) : (s.setPc w).a = s.a := rfl
@[simp] theorem State.setPc_f (w : Word) (s : State) : (s.setPc w).f = s.f := rfl
@[simp] theorem State.setPc_b (w : Word) (s : State) : (s.setPc w).b = s.b := rfl
@[simp] theorem State.setPc_c (w : Word) (s : State) : (s.setPc w).c = s.c := rfl
@[simp] theorem State.setPc_d (w : Word) (s : State) : (s.setPc w).d = s.d := rfl
@[simp] theorem State.setPc_e (w : Word) (s : State) : (s.setPc w).e = s.e := rfl
@[simp] theorem State.setPc_h (w : Word) (s : State) : (s.setPc w).h = s.h := rfl
@[simp] theorem State.setPc_l (w : Word) (s : State) : (s.setPc w).l = s.l := rfl
@[simp] theorem State.setPc_sp (w : Word) (s : State) : (s.setPc w).sp = s.sp := rfl
@[simp] theorem State.setPc_mem (w : Word) (s : State) : (s.setPc w).mem = s.mem := rfl
@[simp] theorem State.setPc_clk (w : Word) (s : State) : (s.setPc w).clk = s.clk := rfl
@[simp] theorem State.setPc_fault (w : Word) (s : State) : (s.setPc w).fault = s.fault := rfl
@[simp] theorem State.setPc_cfg (w : Word) (s : State) : (s.setPc w).cfg = s.cfg := rfl
@[simp] theorem State.setPc_pc_eq (w : Word) (s : State) : (s.setPc w).pc = w := rfl
@[simp] theorem State.setPc_reg8 (w : Word) (s : State) : (s.setPc w).reg8 = s.reg8 := by funext r; cases r <;> rfl
@[simp] theorem State.setPc_pair (w : Word) (s : State) : (s.setPc w).pair = s.pair := by funext p; cases p <;> rfl

/-! memWrite8 -/

@[simp] theorem State.memWrite8_a (a : Word) (v : Byte) (s : State) : (s.memWrite8 a v).a = s.a := rfl
@[simp] theorem State.memWrite8_f (a : Word) (v : Byte) (s : State) : (s.memWrite8 a v).f = s.f := rfl
@[simp] theorem State.memWrite8_b (a : Word) (v : Byte) (s : State) : (s.memWrite8 a v).b = s.b := rfl
@[simp] theorem State.memWrite8_c (a : Word) (v : Byte) (s : State) : (s.memWrite8 a v).c = s.c := rfl
@[simp] theorem State.memWrite8_d (a : Word) (v : Byte) (s : State) : (s.memWrite8 a v).d = s.d := rfl
@[simp] theorem State.memWrite8_e (a : Word) (v : Byte) (s : State) : (s.memWrite8 a v).e = s.e := rfl
@[simp] theorem State.memWrite8_h (a : Word) (v : Byte) (s : State) : (s.memWrite8 a v).h = s.h := rfl
@[simp] theorem State.memWrite8_l (a : Word) (v : Byte) (s : State) : (s.memWrite8 a v).l = s.l := rfl
@[simp] theorem State.memWrite8_sp (a : Word) (v : Byte) (s : State) : (s.memWrite8 a v).sp = s.sp := rfl
@[simp] theorem State.memWrite8_pc (a : Word) (v : Byte) (s : State) : (s.memWrite8 a v).pc = s.pc := rfl
@[simp] theorem State.memWrite8_clk (a : Word) (v : Byte) (s : State) : (s.memWrite8 a v).clk = s.clk := rfl
@[simp] theorem State.memWrite8_fault (a : Word) (v : Byte) (s : State) : (s.memWrite8 a v).fault = s.fault := rfl
@[simp] theorem State.memWrite8_cfg (a : Word) (v : Byte) (s : State) : (s.memWrite8 a v).cfg = s.cfg := rfl
@[simp] theorem State.memWrite8_mem_eq (a : Word) (v : Byte) (s : State) : (s.memWrite8 a v).mem = Memory.write s.mem a.toNat v := rfl
@[simp] theorem State.memWrite8_reg8 (a : Word) (v : Byte) (s : State) : (s.memWrite8 a v).reg8 = s.reg8 := by funext r; cases r <;> rfl
@[simp] theorem State.memWrite8_pair (a : Word) (v : Byte) (s : State) : (s.memWrite8 a v).pair = s.pair := by funext p; cases p <;> rfl

/-! memWrite16 -/

@[simp] theorem State.memWrite16_a (a : Word) (w : Word) (s : State) : (s.memWrite16 a w).a = s.a := rfl
@[simp] theorem State.memWrite16_f (a : Word) (w : Word) (s : State) : (s.memWrite16 a w).f = s.f := rfl
@[simp] theorem State.memWrite16_b (a : Word) (w : Word) (s : State) : (s.memWrite16 a w).b = s.b := rfl
@[simp] theorem State.memWrite16_c (a : Word) (w : Word) (s : State) : (s.memWrite16 a w).c = s.c := rfl
@[simp] theorem State.memWrite16_d (a : Word) (w : Word) (s : State) : (s.memWrite16 a w).d = s.d := rfl
@[simp] theorem State.memWrite16_e (a : Word) (w : Word) (s : State) : (s.memWrite16 a w).e = s.e := rfl
@[simp] theorem State.memWrite16_h (a : Word) (w : Word) (s : State) : (s.memWrite16 a w).h = s.h := rfl
@[simp] theorem State.memWrite16_l (a : Word) (w : Word) (s : State) : (s.memWrite16 a w).l = s.l := rfl
@[simp] theorem State.memWrite16_sp (a : Word) (w : Word) (s : State) : (s.memWrite16 a w).sp = s.sp := rfl
@[simp] theorem State.memWrite16_pc (a : Word) (w : Word) (s : State) : (s.memWrite16 a w).pc = s.pc := rfl
@[simp] theorem State.memWrite16_clk (a : Word) (w : Word) (s : State) : (s.memWrite16 a w).clk = s.clk := rfl
@[simp] theorem State.memWrite16_fault (a : Word) (w : Word) (s : State) : (s.memWrite16 a w).fault = s.fault := rfl
@[simp] theorem State.memWrite16_cfg (a : Word) (w : Word) (s : State) : (s.memWrite16 a w).cfg = s.cfg := rfl
@[simp] theorem State.memWrite16_reg8 (a : Word) (w : Word) (s : State) : (s.memWrite16 a w).reg8 = s.reg8 := by funext r; cases r <;> rfl
@[simp] theorem State.memWrite16_pair (a : Word) (w : Word) (s : State) : (s.memWrite16 a w).pair = s.pair := by funext p; cases p <;> rfl

/-! raise -/

@[simp] theorem State.raise_a (r : FaultRecord) (s : State) : (s.raise r).a = s.a := rfl
@[simp] theorem State.raise_f (r : FaultRecord) (s : State) : (s.raise r).f = s.f := rfl
@[simp] theorem State.raise_b (r : FaultRecord) (s : State) : (s.raise r).b = s.b := rfl
@[simp] theorem State.raise_c (r : FaultRecord) (s : State) : (s.raise r).c = s.c := rfl
@[simp] theorem State.raise_d (r : FaultRecord) (s : State) : (s.raise r).d = s.d := rfl
@[simp] theorem State.raise_e (r : FaultRecord) (s : State) : (s.raise r).e = s.e := rfl
@[simp] theorem State.raise_h (r : FaultRecord) (s : State) : (s.raise r).h = s.h := rfl
@[simp] theorem State.raise_l (r : FaultRecord) (s : State) : (s.raise r).l = s.l := rfl
@[simp] theorem State.raise_sp (r : FaultRecord) (s : State) : (s.raise r).sp = s.sp := rfl
@[simp] theorem State.raise_pc (r : FaultRecord) (s : State) : (s.raise r).pc = s.pc := rfl
@[simp] theorem State.raise_mem (r : FaultRecord) (s : State) : (s.raise r).mem = s.mem := rfl
@[simp] theorem State.raise_clk (r : FaultRecord) (s : State) : (s.raise r).clk = s.clk := rfl
@[simp] theorem State.raise_cfg (r : FaultRecord) (s : State) : (s.raise r).cfg = s.cfg := rfl
@[simp] theorem State.raise_fault_eq (r : FaultRecord) (s : State) : (s.raise r).fault = some r := rfl
@[simp] theorem State.raise_reg8 (r : FaultRecord) (s : State) : (s.raise r).reg8 = s.reg8 := by funext r; cases r <;> rfl
@[simp] theorem State.raise_pair (r : FaultRecord) (s : State) : (s.raise r).pair = s.pair := by funext p; cases p <;> rfl

/-! advancePc -/

@[simp] theorem State.advancePc_a (n : Nat) (s : State) : (s.advancePc n).a = s.a := rfl
@[simp] theorem State.advancePc_f (n : Nat) (s : State) : (s.advancePc n).f = s.f := rfl
@[simp] theorem State.advancePc_b (n : Nat) (s : State) : (s.advancePc n).b = s.b := rfl
@[simp] theorem State.advancePc_c (n : Nat) (s : State) : (s.advancePc n).c = s.c := rfl
@[simp] theorem State.advancePc_d (n : Nat) (s : State) : (s.advancePc n).d = s.d := rfl
@[simp] theorem State.advancePc_e (n : Nat) (s : State) : (s.advancePc n).e = s.e := rfl
@[simp] theorem State.advancePc_h (n : Nat) (s : State) : (s.advancePc n).h = s.h := rfl
@[simp] theorem State.advancePc_l (n : Nat) (s : State) : (s.advancePc n).l = s.l := rfl
@[simp] theorem State.advancePc_sp (n : Nat) (s : State) : (s.advancePc n).sp = s.sp := rfl
@[simp] theorem State.advancePc_mem (n : Nat) (s : State) : (s.advancePc n).mem = s.mem := rfl
@[simp] theorem State.advancePc_clk (n : Nat) (s : State) : (s.advancePc n).clk = s.clk := rfl
@[simp] theorem State.advancePc_fault (n : Nat) (s : State) : (s.advancePc n).fault = s.fault := rfl
@[simp] theorem State.advancePc_cfg (n : Nat) (s : State) : (s.advancePc n).cfg = s.cfg := rfl
@[simp] theorem State.advancePc_pc_eq (n : Nat) (s : State) : (s.advancePc n).pc = s.pc + BitVec.ofNat 16 n := rfl
@[simp] theorem State.advancePc_reg8 (n : Nat) (s : State) : (s.advancePc n).reg8 = s.reg8 := by funext r; cases r <;> rfl
@[simp] theorem State.advancePc_pair (n : Nat) (s : State) : (s.advancePc n).pair = s.pair := by funext p; cases p <;> rfl

/-! tick -/

@[simp] theorem State.tick_a (n : Nat) (s : State) : (s.tick n).a = s.a := rfl
@[simp] theorem State.tick_f (n : Nat) (s : State) : (s.tick n).f = s.f := rfl
@[simp] theorem State.tick_b (n : Nat) (s : State) : (s.tick n).b = s.b := rfl
@[simp] theorem State.tick_c (n : Nat) (s : State) : (s.tick n).c = s.c := rfl
@[simp] theorem State.tick_d (n : Nat) (s : State) : (s.tick n).d = s.d := rfl
@[simp] theorem State.tick_e (n : Nat) (s : State) : (s.tick n).e = s.e := rfl
@[simp] theorem State.tick_h (n : Nat) (s : State) : (s.tick n).h = s.h := rfl
@[simp] theorem State.tick_l (n : Nat) (s : State) : (s.tick n).l = s.l := rfl
@[simp] theorem State.tick_sp (n : Nat) (s : State) : (s.tick n).sp = s.sp := rfl
@[simp] theorem State.tick_pc (n : Nat) (s : State) : (s.tick n).pc = s.pc := rfl
@[simp] theorem State.tick_mem (n : Nat) (s : State) : (s.tick n).mem = s.mem := rfl
@[simp] theorem State.tick_fault (n : Nat) (s : State) : (s.tick n).fault = s.fault := rfl
@[simp] theorem State.tick_cfg (n : Nat) (s : State) : (s.tick n).cfg = s.cfg := rfl
@[simp] theorem State.tick_clk_eq (n : Nat) (s : State) : (s.tick n).clk = s.clk + n + s.cfg.tickBias.val := rfl
@[simp] theorem State.tick_reg8 (n : Nat) (s : State) : (s.tick n).reg8 = s.reg8 := by funext r; cases r <;> rfl
@[simp] theorem State.tick_pair (n : Nat) (s : State) : (s.tick n).pair = s.pair := by funext p; cases p <;> rfl

end Sys2Proof.Machine
end

