-- ==== Sys2Proof/Laws/Memory.lean ====
section
/-! SUPPORT. Memory: read after write, and the canonical form under every memory operation. -/

namespace Sys2Proof.Machine

@[simp] theorem Memory.read_push (k j : Nat) (v : Byte) (m : Memory) (h : Memory.read m k = Memory.unlisted) :
    Memory.read (Memory.push k v m) j = if j = k then v else Memory.read m j := by
  unfold Memory.push
  split
  · split <;> simp_all
  · rfl

/-- A canonical memory from `low` up lists nothing below `low`. -/
theorem Memory.read_below {low : Nat} {m : Memory} (h : Memory.wfFrom low m = true) {k : Nat} (hk : k < low) :
    Memory.read m k = Memory.unlisted := by
  induction m generalizing low with
  | nil => rfl
  | cons x rest ih =>
    obtain ⟨a, v⟩ := x
    simp only [Memory.wfFrom, Bool.and_eq_true, decide_eq_true_eq] at h
    have hne : k ≠ a := by omega
    simp only [Memory.read, if_neg hne]
    exact ih h.2 (by omega)

/-- A canonical memory from `low` up is canonical from any lower address up. -/
theorem Memory.wfFrom_mono {low low' : Nat} {m : Memory} (h : Memory.wfFrom low m = true) (hl : low' ≤ low) :
    Memory.wfFrom low' m = true := by
  cases m with
  | nil => rfl
  | cons x rest =>
    obtain ⟨a, v⟩ := x
    simp only [Memory.wfFrom, Bool.and_eq_true, decide_eq_true_eq] at h ⊢
    exact ⟨⟨⟨by omega, h.1.1.2⟩, h.1.2⟩, h.2⟩

theorem Memory.wfFrom_push {low k : Nat} {v : Byte} {m : Memory} (hm : Memory.wfFrom (k + 1) m = true)
    (hk : low ≤ k) (hb : k < 65536) : Memory.wfFrom low (Memory.push k v m) = true := by
  unfold Memory.push
  split
  · exact Memory.wfFrom_mono hm (by omega)
  · rename_i hv
    simp [Memory.wfFrom, hk, hb, hm, hv]

/-- Reading after a write: the byte written at its address, every other byte as before. -/
theorem Memory.read_write {low : Nat} {m : Memory} (h : Memory.wfFrom low m = true) (k j : Nat) (v : Byte) :
    Memory.read (Memory.write m k v) j = if j = k then v else Memory.read m j := by
  induction m generalizing low with
  | nil => exact Memory.read_push k j v [] rfl
  | cons x rest ih =>
    obtain ⟨a, w⟩ := x
    have h0 := h
    simp only [Memory.wfFrom, Bool.and_eq_true, decide_eq_true_eq] at h
    unfold Memory.write
    split
    · rename_i hlt
      apply Memory.read_push
      have hne : k ≠ a := by omega
      simp only [Memory.read, if_neg hne]
      exact Memory.read_below h.2 (by omega)
    · split
      · rename_i _ heq
        subst heq
        rw [Memory.read_push _ _ _ _ (Memory.read_below h.2 (by omega))]
        by_cases hj : j = k <;> simp [Memory.read, hj]
      · rename_i hnlt hne
        simp only [Memory.read, ih h.2]
        by_cases hj : j = a
        · have : j ≠ k := by omega
          simp [hj]; omega
        · simp [hj]

/-- A write keeps the canonical form. -/
theorem Memory.wfFrom_write {low : Nat} {m : Memory} (h : Memory.wfFrom low m = true) {k : Nat} (v : Byte)
    (hk : low ≤ k) (hb : k < 65536) : Memory.wfFrom low (Memory.write m k v) = true := by
  induction m generalizing low with
  | nil => exact Memory.wfFrom_push rfl hk hb
  | cons x rest ih =>
    obtain ⟨a, w⟩ := x
    have h0 := h
    simp only [Memory.wfFrom, Bool.and_eq_true, decide_eq_true_eq] at h
    unfold Memory.write
    split
    · refine Memory.wfFrom_push ?_ hk hb
      simp only [Memory.wfFrom, Bool.and_eq_true, decide_eq_true_eq]
      exact ⟨⟨⟨by omega, h.1.1.2⟩, h.1.2⟩, h.2⟩
    · split
      · rename_i _ heq
        subst heq
        exact Memory.wfFrom_push h.2 hk hb
      · simp only [Memory.wfFrom, Bool.and_eq_true, decide_eq_true_eq]
        exact ⟨h.1, ih h.2 (by omega)⟩

/-- The same on a state: a byte write keeps the canonical form (R53). -/
theorem State.memWrite8_wf {s : State} (h : s.mem.wf = true) (a : Word) (v : Byte) :
    (s.memWrite8 a v).mem.wf = true :=
  Memory.wfFrom_write h v (Nat.zero_le _) a.isLt

theorem State.memWrite16_wf {s : State} (h : s.mem.wf = true) (a w : Word) :
    (s.memWrite16 a w).mem.wf = true :=
  State.memWrite8_wf (State.memWrite8_wf h a _) _ _

/-- Placing bytes keeps the canonical form. -/
theorem State.storeBytes_wf (bs : List Byte) {s : State} (h : s.mem.wf = true) (a : Word) :
    (s.storeBytes a bs).mem.wf = true := by
  induction bs generalizing s a with
  | nil => exact h
  | cons v rest ih => exact ih (State.memWrite8_wf h a v) (a + 1)

/-- A cell after a byte write (R53). -/
theorem State.cell_memWrite8 {s : State} (h : s.mem.wf = true) (a b : Word) (v : Byte) :
    (s.memWrite8 a v).cell b = if b = a then v else s.cell b := by
  simp only [State.cell, State.memWrite8_mem_eq, Memory.read_write h]
  by_cases hb : b = a
  · simp [hb]
  · have : b.toNat ≠ a.toNat := fun e => hb (BitVec.eq_of_toNat_eq e)
    simp [hb, this]

/-- A cell after a word write (R55, R58). -/
theorem State.cell_memWrite16 {s : State} (h : s.mem.wf = true) (a b w : Word) :
    (s.memWrite16 a w).cell b = if b = a + 1 then hi8 w else if b = a then lo8 w else s.cell b := by
  rw [State.memWrite16, State.cell_memWrite8 (State.memWrite8_wf h a _), State.cell_memWrite8 h]

/-- Cells depend on the memory alone. -/
theorem State.cell_congr {s t : State} (h : s.mem = t.mem) (a : Word) : s.cell a = t.cell a := by
  simp [State.cell, h]

/-! Cells and reads under the updates that touch neither memory nor the policy. -/

@[simp] theorem State.setReg8_cell (r : Reg8) (v : Byte) (s : State) (a : Word) : (s.setReg8 r v).cell a = s.cell a := by
  simp [State.cell]
@[simp] theorem State.setReg8_memRead8 (r : Reg8) (v : Byte) (s : State) (a : Word) : (s.setReg8 r v).memRead8 a = s.memRead8 a := by
  simp [State.memRead8]
@[simp] theorem State.setFByte_cell (v : Byte) (s : State) (a : Word) : (s.setFByte v).cell a = s.cell a := by
  simp [State.cell]
@[simp] theorem State.setFByte_memRead8 (v : Byte) (s : State) (a : Word) : (s.setFByte v).memRead8 a = s.memRead8 a := by
  simp [State.memRead8]
@[simp] theorem State.setPair_cell (p : Pair) (w : Word) (s : State) (a : Word) : (s.setPair p w).cell a = s.cell a := by
  simp [State.cell]
@[simp] theorem State.setPair_memRead8 (p : Pair) (w : Word) (s : State) (a : Word) : (s.setPair p w).memRead8 a = s.memRead8 a := by
  simp [State.memRead8]
@[simp] theorem State.setSp_cell (w : Word) (s : State) (a : Word) : (s.setSp w).cell a = s.cell a := by
  simp [State.cell]
@[simp] theorem State.setSp_memRead8 (w : Word) (s : State) (a : Word) : (s.setSp w).memRead8 a = s.memRead8 a := by
  simp [State.memRead8]
@[simp] theorem State.setPc_cell (w : Word) (s : State) (a : Word) : (s.setPc w).cell a = s.cell a := by
  simp [State.cell]
@[simp] theorem State.setPc_memRead8 (w : Word) (s : State) (a : Word) : (s.setPc w).memRead8 a = s.memRead8 a := by
  simp [State.memRead8]
@[simp] theorem State.raise_cell (r : FaultRecord) (s : State) (a : Word) : (s.raise r).cell a = s.cell a := by
  simp [State.cell]
@[simp] theorem State.raise_memRead8 (r : FaultRecord) (s : State) (a : Word) : (s.raise r).memRead8 a = s.memRead8 a := by
  simp [State.memRead8]
@[simp] theorem State.advancePc_cell (n : Nat) (s : State) (a : Word) : (s.advancePc n).cell a = s.cell a := by
  simp [State.cell]
@[simp] theorem State.advancePc_memRead8 (n : Nat) (s : State) (a : Word) : (s.advancePc n).memRead8 a = s.memRead8 a := by
  simp [State.memRead8]
@[simp] theorem State.tick_cell (n : Nat) (s : State) (a : Word) : (s.tick n).cell a = s.cell a := by
  simp [State.cell]
@[simp] theorem State.tick_memRead8 (n : Nat) (s : State) (a : Word) : (s.tick n).memRead8 a = s.memRead8 a := by
  simp [State.memRead8]

/-- Under FLAT a read returns the cell (R51, R52). -/
theorem State.memRead8_of_flat {s : State} (h : s.cfg.memmap = .flat) (a : Word) : s.memRead8 a = s.cell a := by
  simp [State.memRead8, readsAs, h, State.cell]

/-- Where no window of the policy covers an address, a read of it returns the cell (log 5). -/
theorem State.memRead8_of_uncovered {s : State} {ws : List Window} (h : s.cfg.memmap = .guarded ws) {a : Word}
    (hc : ∀ w ∈ ws, windowCovers w a = false) : s.memRead8 a = s.cell a := by
  simp only [State.memRead8, readsAs, h, State.cell]
  clear h
  induction ws with
  | nil => rfl
  | cons w ws ih =>
    simp only [windowsRead, hc w (List.mem_cons_self ..)]
    exact ih fun x hx => hc x (List.mem_cons_of_mem _ hx)

/-- Reading one byte after a byte write, under FLAT (R51, R52, R53). -/
theorem State.memRead8_memWrite8 {s : State} (hf : s.cfg.memmap = .flat) (h : s.mem.wf = true) (a b : Word) (v : Byte) :
    (s.memWrite8 a v).memRead8 b = if b = a then v else s.memRead8 b := by
  rw [State.memRead8_of_flat hf, State.memRead8_of_flat (by exact hf), State.cell_memWrite8 h]

/-- Reading one byte after a word write, under FLAT (R51, R55, R58). -/
theorem State.memRead8_memWrite16 {s : State} (hf : s.cfg.memmap = .flat) (h : s.mem.wf = true) (a b w : Word) :
    (s.memWrite16 a w).memRead8 b = if b = a + 1 then hi8 w else if b = a then lo8 w else s.memRead8 b := by
  rw [State.memRead8_of_flat hf, State.memRead8_of_flat (by exact hf), State.cell_memWrite16 h]

/-- Reads depend on the memory and the policy alone. -/
theorem State.memRead8_congr {s t : State} (h : s.mem = t.mem) (hc : s.cfg = t.cfg) (a : Word) :
    s.memRead8 a = t.memRead8 a := by
  simp [State.memRead8, h, hc]

theorem State.memRead16_congr {s t : State} (h : s.mem = t.mem) (hc : s.cfg = t.cfg) (a : Word) :
    s.memRead16 a = t.memRead16 a := by
  simp [State.memRead16, State.memRead8, h, hc]

end Sys2Proof.Machine
end

