-- ==== Sys2Proof/Laws/Operands.lean ====
section
/-! SUPPORT. The addresses the machine forms are all `deref` addresses (20_memory.md R50). -/

namespace Sys2Proof.Machine

/-- R50: `(base + offset) mod 2^16`. -/
theorem derefAddress_toNat (base : Word) (offset : Int) :
    ((derefAddress base offset).toNat : Int) = (base.toNat + offset) % 65536 := by
  rw [derefAddress, BitVec.toNat_ofInt, Int.toNat_of_nonneg (Int.emod_nonneg _ (by decide))]
  rfl

/-- A cell a few bytes up: the immediate cells and the high byte of a word (R58, R61). -/
theorem derefAddress_ofNat (base : Word) (k : Nat) : derefAddress base k = base + BitVec.ofNat 16 k := by
  apply BitVec.eq_of_toNat_eq
  have h := derefAddress_toNat base k
  rw [BitVec.toNat_add, BitVec.toNat_ofNat]
  omega

/-- R87: the zero-page address is `deref` of 0xFF00 with the signed, or under zext the unsigned, offset. -/
theorem zeroPage_eq_derefAddress (off : Byte) :
    zeroPage .sext off = derefAddress 0xFF00 off.toInt ∧ zeroPage .zext off = derefAddress 0xFF00 off.toNat := by
  have key : ∀ n : Fin 256, zeroPage .sext (BitVec.ofFin n) = derefAddress 0xFF00 (BitVec.ofFin n : Byte).toInt ∧
      zeroPage .zext (BitVec.ofFin n) = derefAddress 0xFF00 (BitVec.ofFin n : Byte).toNat := by decide +kernel
  exact key off.toFin

end Sys2Proof.Machine
end

