-- ==== Sys2Proof/Laws/PerInstr.lean ====
section
/-! SUPPORT. Family EncodedLength (30_encoding.md R93): the length the decoder tells from the first byte of a
well-formed instruction's encoding is the number of bytes the encoder gives it. -/

namespace Sys2Proof.Laws.EncodedLength

/-- The decoder takes as many bytes for the first byte of `encode i` as `encode i` has. -/
def Statement (i : Instr) : Prop :=
  ∀ admitTier2, i.wellFormed admitTier2 = true →
    (encode i).length = instrLength admitTier2 ((encode i).headD 0)

theorem ldBB : Statement (.ldBB) := fun k _ => by cases k <;> rfl

theorem ldBC : Statement (.ldBC) := fun k _ => by cases k <;> rfl

theorem ldBD : Statement (.ldBD) := fun k _ => by cases k <;> rfl

theorem ldBE : Statement (.ldBE) := fun k _ => by cases k <;> rfl

theorem ldBH : Statement (.ldBH) := fun k _ => by cases k <;> rfl

theorem ldBL : Statement (.ldBL) := fun k _ => by cases k <;> rfl

theorem ldBAtHl : Statement (.ldBAtHl) := fun k _ => by cases k <;> rfl

theorem ldBA : Statement (.ldBA) := fun k _ => by cases k <;> rfl

theorem ldCB : Statement (.ldCB) := fun k _ => by cases k <;> rfl

theorem ldCC : Statement (.ldCC) := fun k _ => by cases k <;> rfl

theorem ldCD : Statement (.ldCD) := fun k _ => by cases k <;> rfl

theorem ldCE : Statement (.ldCE) := fun k _ => by cases k <;> rfl

theorem ldCH : Statement (.ldCH) := fun k _ => by cases k <;> rfl

theorem ldCL : Statement (.ldCL) := fun k _ => by cases k <;> rfl

theorem ldCAtHl : Statement (.ldCAtHl) := fun k _ => by cases k <;> rfl

theorem ldCA : Statement (.ldCA) := fun k _ => by cases k <;> rfl

theorem ldDB : Statement (.ldDB) := fun k _ => by cases k <;> rfl

theorem ldDC : Statement (.ldDC) := fun k _ => by cases k <;> rfl

theorem ldDD : Statement (.ldDD) := fun k _ => by cases k <;> rfl

theorem ldDE : Statement (.ldDE) := fun k _ => by cases k <;> rfl

theorem ldDH : Statement (.ldDH) := fun k _ => by cases k <;> rfl

theorem ldDL : Statement (.ldDL) := fun k _ => by cases k <;> rfl

theorem ldDAtHl : Statement (.ldDAtHl) := fun k _ => by cases k <;> rfl

theorem ldDA : Statement (.ldDA) := fun k _ => by cases k <;> rfl

theorem ldEB : Statement (.ldEB) := fun k _ => by cases k <;> rfl

theorem ldEC : Statement (.ldEC) := fun k _ => by cases k <;> rfl

theorem ldED : Statement (.ldED) := fun k _ => by cases k <;> rfl

theorem ldEE : Statement (.ldEE) := fun k _ => by cases k <;> rfl

theorem ldEH : Statement (.ldEH) := fun k _ => by cases k <;> rfl

theorem ldEL : Statement (.ldEL) := fun k _ => by cases k <;> rfl

theorem ldEAtHl : Statement (.ldEAtHl) := fun k _ => by cases k <;> rfl

theorem ldEA : Statement (.ldEA) := fun k _ => by cases k <;> rfl

theorem ldHB : Statement (.ldHB) := fun k _ => by cases k <;> rfl

theorem ldHC : Statement (.ldHC) := fun k _ => by cases k <;> rfl

theorem ldHD : Statement (.ldHD) := fun k _ => by cases k <;> rfl

theorem ldHE : Statement (.ldHE) := fun k _ => by cases k <;> rfl

theorem ldHH : Statement (.ldHH) := fun k _ => by cases k <;> rfl

theorem ldHL : Statement (.ldHL) := fun k _ => by cases k <;> rfl

theorem ldHAtHl : Statement (.ldHAtHl) := fun k _ => by cases k <;> rfl

theorem ldHA : Statement (.ldHA) := fun k _ => by cases k <;> rfl

theorem ldLB : Statement (.ldLB) := fun k _ => by cases k <;> rfl

theorem ldLC : Statement (.ldLC) := fun k _ => by cases k <;> rfl

theorem ldLD : Statement (.ldLD) := fun k _ => by cases k <;> rfl

theorem ldLE : Statement (.ldLE) := fun k _ => by cases k <;> rfl

theorem ldLH : Statement (.ldLH) := fun k _ => by cases k <;> rfl

theorem ldLL : Statement (.ldLL) := fun k _ => by cases k <;> rfl

theorem ldLAtHl : Statement (.ldLAtHl) := fun k _ => by cases k <;> rfl

theorem ldLA : Statement (.ldLA) := fun k _ => by cases k <;> rfl

theorem ldAtHlB : Statement (.ldAtHlB) := fun k _ => by cases k <;> rfl

theorem ldAtHlC : Statement (.ldAtHlC) := fun k _ => by cases k <;> rfl

theorem ldAtHlD : Statement (.ldAtHlD) := fun k _ => by cases k <;> rfl

theorem ldAtHlE : Statement (.ldAtHlE) := fun k _ => by cases k <;> rfl

theorem ldAtHlH : Statement (.ldAtHlH) := fun k _ => by cases k <;> rfl

theorem ldAtHlL : Statement (.ldAtHlL) := fun k _ => by cases k <;> rfl

theorem ldAtHlA : Statement (.ldAtHlA) := fun k _ => by cases k <;> rfl

theorem ldAB : Statement (.ldAB) := fun k _ => by cases k <;> rfl

theorem ldAC : Statement (.ldAC) := fun k _ => by cases k <;> rfl

theorem ldAD : Statement (.ldAD) := fun k _ => by cases k <;> rfl

theorem ldAE : Statement (.ldAE) := fun k _ => by cases k <;> rfl

theorem ldAH : Statement (.ldAH) := fun k _ => by cases k <;> rfl

theorem ldAL : Statement (.ldAL) := fun k _ => by cases k <;> rfl

theorem ldAAtHl : Statement (.ldAAtHl) := fun k _ => by cases k <;> rfl

theorem ldAA : Statement (.ldAA) := fun k _ => by cases k <;> rfl

theorem ldBD8 (d8 : Byte) : Statement (.ldBD8 d8) := fun k _ => by cases k <;> rfl

theorem ldCD8 (d8 : Byte) : Statement (.ldCD8 d8) := fun k _ => by cases k <;> rfl

theorem ldDD8 (d8 : Byte) : Statement (.ldDD8 d8) := fun k _ => by cases k <;> rfl

theorem ldED8 (d8 : Byte) : Statement (.ldED8 d8) := fun k _ => by cases k <;> rfl

theorem ldHD8 (d8 : Byte) : Statement (.ldHD8 d8) := fun k _ => by cases k <;> rfl

theorem ldLD8 (d8 : Byte) : Statement (.ldLD8 d8) := fun k h => by
  cases k with
  | false => cases h
  | true => rfl

theorem ldAtHlD8 (d8 : Byte) : Statement (.ldAtHlD8 d8) := fun k _ => by cases k <;> rfl

theorem ldAD8 (d8 : Byte) : Statement (.ldAD8 d8) := fun k _ => by cases k <;> rfl

theorem ldAtBcA : Statement (.ldAtBcA) := fun k _ => by cases k <;> rfl

theorem ldAtDeA : Statement (.ldAtDeA) := fun k h => by
  cases k with
  | false => cases h
  | true => rfl

theorem ldAAtBc : Statement (.ldAAtBc) := fun k h => by
  cases k with
  | false => cases h
  | true => rfl

theorem ldAAtDe : Statement (.ldAAtDe) := fun k h => by
  cases k with
  | false => cases h
  | true => rfl

theorem ldAtHlIncA : Statement (.ldAtHlIncA) := fun k _ => by cases k <;> rfl

theorem ldAAtHlInc : Statement (.ldAAtHlInc) := fun k _ => by cases k <;> rfl

theorem ldAtHlDecA : Statement (.ldAtHlDecA) := fun k _ => by cases k <;> rfl

theorem ldAAtHlDec : Statement (.ldAAtHlDec) := fun k _ => by cases k <;> rfl

theorem ldhAtA8A (a8 : Byte) : Statement (.ldhAtA8A a8) := fun k _ => by cases k <;> rfl

theorem ldhAAtA8 (a8 : Byte) : Statement (.ldhAAtA8 a8) := fun k _ => by cases k <;> rfl

theorem ldAtCA : Statement (.ldAtCA) := fun k _ => by cases k <;> rfl

theorem ldAAtC : Statement (.ldAAtC) := fun k _ => by cases k <;> rfl

theorem ldAtA16A (a16 : Word) : Statement (.ldAtA16A a16) := fun k _ => by cases k <;> rfl

theorem ldAAtA16 (a16 : Word) : Statement (.ldAAtA16 a16) := fun k _ => by cases k <;> rfl

theorem ldBcD16 (d16 : Word) : Statement (.ldBcD16 d16) := fun k _ => by cases k <;> rfl

theorem ldDeD16 (d16 : Word) : Statement (.ldDeD16 d16) := fun k h => by
  cases k with
  | false => cases h
  | true => rfl

theorem ldHlD16 (d16 : Word) : Statement (.ldHlD16 d16) := fun k h => by
  cases k with
  | false => cases h
  | true => rfl

theorem ldSpD16 (d16 : Word) : Statement (.ldSpD16 d16) := fun k h => by
  cases k with
  | false => cases h
  | true => rfl

theorem ldAtA16Sp (a16 : Word) : Statement (.ldAtA16Sp a16) := fun k h => by
  cases k with
  | false => cases h
  | true => rfl

theorem ldHlSpR8 (r8 : Byte) : Statement (.ldHlSpR8 r8) := fun k _ => by cases k <;> rfl

theorem ldSpHl : Statement (.ldSpHl) := fun k _ => by cases k <;> rfl

theorem pushBc : Statement (.pushBc) := fun k _ => by cases k <;> rfl

theorem pushDe : Statement (.pushDe) := fun k _ => by cases k <;> rfl

theorem pushHl : Statement (.pushHl) := fun k _ => by cases k <;> rfl

theorem pushAf : Statement (.pushAf) := fun k _ => by cases k <;> rfl

theorem popBc : Statement (.popBc) := fun k _ => by cases k <;> rfl

theorem popDe : Statement (.popDe) := fun k _ => by cases k <;> rfl

theorem popHl : Statement (.popHl) := fun k _ => by cases k <;> rfl

theorem popAf : Statement (.popAf) := fun k _ => by cases k <;> rfl

theorem unimplemented (op : Byte) : Statement (.unimplemented op) := fun k h =>
  (instrLength_of_not_decodable k op (by simpa [Instr.wellFormed] using h)).symm

end Sys2Proof.Laws.EncodedLength
end

