-- ==== Sys2Proof/Laws/Records.lean ====
section
/-! SUPPORT. The decoded Instruction (R111) each meaning executes, in one table, and the proof that `exec` is `execute` of it:
a proof about all instructions goes through `exec_eq_execute` instead of through 101 meanings. -/

namespace Sys2Proof.Machine

/-- The Instruction of each term in a state; none for a byte with no handler. -/
def record (i : Instr) (s : State) : Option Instruction :=
  match i with
  | .ldBB => some ⟨.loadByte (.reg .b) (.reg .b), 4, 1, []⟩
  | .ldBC => some ⟨.loadByte (.reg .c) (.reg .b), 4, 1, []⟩
  | .ldBD => some ⟨.loadByte (.reg .d) (.reg .b), 4, 1, []⟩
  | .ldBE => some ⟨.loadByte (.reg .e) (.reg .b), 4, 1, []⟩
  | .ldBH => some ⟨.loadByte (.reg .h) (.reg .b), 4, 1, []⟩
  | .ldBL => some ⟨.loadByte (.reg .l) (.reg .b), 4, 1, []⟩
  | .ldBAtHl => some ⟨.loadByte (.mem (s.pair .hl)) (.reg .b), 8, 1, []⟩
  | .ldBA => some ⟨.loadByte (.reg .a) (.reg .b), 4, 1, []⟩
  | .ldCB => some ⟨.loadByte (.reg .b) (.reg .c), 4, 1, []⟩
  | .ldCC => some ⟨.loadByte (.reg .c) (.reg .c), 4, 1, []⟩
  | .ldCD => some ⟨.loadByte (.reg .d) (.reg .c), 4, 1, []⟩
  | .ldCE => some ⟨.loadByte (.reg .e) (.reg .c), 4, 1, []⟩
  | .ldCH => some ⟨.loadByte (.reg .h) (.reg .c), 4, 1, []⟩
  | .ldCL => some ⟨.loadByte (.reg .l) (.reg .c), 4, 1, []⟩
  | .ldCAtHl => some ⟨.loadByte (.mem (s.pair .hl)) (.reg .c), 8, 1, []⟩
  | .ldCA => some ⟨.loadByte (.reg .a) (.reg .c), 4, 1, []⟩
  | .ldDB => some ⟨.loadByte (.reg .b) (.reg .d), 4, 1, []⟩
  | .ldDC => some ⟨.loadByte (.reg .c) (.reg .d), 4, 1, []⟩
  | .ldDD => some ⟨.loadByte (.reg .d) (.reg .d), 4, 1, []⟩
  | .ldDE => some ⟨.loadByte (.reg .e) (.reg .d), 4, 1, []⟩
  | .ldDH => some ⟨.loadByte (.reg .h) (.reg .d), 4, 1, []⟩
  | .ldDL => some ⟨.loadByte (.reg .l) (.reg .d), 4, 1, []⟩
  | .ldDAtHl => some ⟨.loadByte (.mem (s.pair .hl)) (.reg .d), 8, 1, []⟩
  | .ldDA => some ⟨.loadByte (.reg .a) (.reg .d), 4, 1, []⟩
  | .ldEB => some ⟨.loadByte (.reg .b) (.reg .e), 4, 1, []⟩
  | .ldEC => some ⟨.loadByte (.reg .c) (.reg .e), 4, 1, []⟩
  | .ldED => some ⟨.loadByte (.reg .d) (.reg .e), 4, 1, []⟩
  | .ldEE => some ⟨.loadByte (.reg .e) (.reg .e), 4, 1, []⟩
  | .ldEH => some ⟨.loadByte (.reg .h) (.reg .e), 4, 1, []⟩
  | .ldEL => some ⟨.loadByte (.reg .l) (.reg .e), 4, 1, []⟩
  | .ldEAtHl => some ⟨.loadByte (.mem (s.pair .hl)) (.reg .e), 8, 1, []⟩
  | .ldEA => some ⟨.loadByte (.reg .a) (.reg .e), 4, 1, []⟩
  | .ldHB => some ⟨.loadByte (.reg .b) (.reg .h), 4, 1, []⟩
  | .ldHC => some ⟨.loadByte (.reg .c) (.reg .h), 4, 1, []⟩
  | .ldHD => some ⟨.loadByte (.reg .d) (.reg .h), 4, 1, []⟩
  | .ldHE => some ⟨.loadByte (.reg .e) (.reg .h), 4, 1, []⟩
  | .ldHH => some ⟨.loadByte (.reg .h) (.reg .h), 4, 1, []⟩
  | .ldHL => some ⟨.loadByte (.reg .l) (.reg .h), 4, 1, []⟩
  | .ldHAtHl => some ⟨.loadByte (.mem (s.pair .hl)) (.reg .h), 8, 1, []⟩
  | .ldHA => some ⟨.loadByte (.reg .a) (.reg .h), 4, 1, []⟩
  | .ldLB => some ⟨.loadByte (.reg .b) (.reg .l), 4, 1, []⟩
  | .ldLC => some ⟨.loadByte (.reg .c) (.reg .l), 4, 1, []⟩
  | .ldLD => some ⟨.loadByte (.reg .d) (.reg .l), 4, 1, []⟩
  | .ldLE => some ⟨.loadByte (.reg .e) (.reg .l), 4, 1, []⟩
  | .ldLH => some ⟨.loadByte (.reg .h) (.reg .l), 4, 1, []⟩
  | .ldLL => some ⟨.loadByte (.reg .l) (.reg .l), 4, 1, []⟩
  | .ldLAtHl => some ⟨.loadByte (.mem (s.pair .hl)) (.reg .l), 8, 1, []⟩
  | .ldLA => some ⟨.loadByte (.reg .a) (.reg .l), 4, 1, []⟩
  | .ldAtHlB => some ⟨.loadByte (.reg .b) (.mem (s.pair .hl)), 8, 1, []⟩
  | .ldAtHlC => some ⟨.loadByte (.reg .c) (.mem (s.pair .hl)), 8, 1, []⟩
  | .ldAtHlD => some ⟨.loadByte (.reg .d) (.mem (s.pair .hl)), 8, 1, []⟩
  | .ldAtHlE => some ⟨.loadByte (.reg .e) (.mem (s.pair .hl)), 8, 1, []⟩
  | .ldAtHlH => some ⟨.loadByte (.reg .h) (.mem (s.pair .hl)), 8, 1, []⟩
  | .ldAtHlL => some ⟨.loadByte (.reg .l) (.mem (s.pair .hl)), 8, 1, []⟩
  | .ldAtHlA => some ⟨.loadByte (.reg .a) (.mem (s.pair .hl)), 8, 1, []⟩
  | .ldAB => some ⟨.loadByte (.reg .b) (.reg .a), 4, 1, []⟩
  | .ldAC => some ⟨.loadByte (.reg .c) (.reg .a), 4, 1, []⟩
  | .ldAD => some ⟨.loadByte (.reg .d) (.reg .a), 4, 1, []⟩
  | .ldAE => some ⟨.loadByte (.reg .e) (.reg .a), 4, 1, []⟩
  | .ldAH => some ⟨.loadByte (.reg .h) (.reg .a), 4, 1, []⟩
  | .ldAL => some ⟨.loadByte (.reg .l) (.reg .a), 4, 1, []⟩
  | .ldAAtHl => some ⟨.loadByte (.mem (s.pair .hl)) (.reg .a), 8, 1, []⟩
  | .ldAA => some ⟨.loadByte (.reg .a) (.reg .a), 4, 1, []⟩
  | .ldBD8 d8 => some ⟨.loadByte (.imm d8) (.reg .b), 8, 2, []⟩
  | .ldCD8 d8 => some ⟨.loadByte (.imm d8) (.reg .c), 8, 2, []⟩
  | .ldDD8 d8 => some ⟨.loadByte (.imm d8) (.reg .d), 8, 2, []⟩
  | .ldED8 d8 => some ⟨.loadByte (.imm d8) (.reg .e), 8, 2, []⟩
  | .ldHD8 d8 => some ⟨.loadByte (.imm d8) (.reg .h), 8, 2, []⟩
  | .ldLD8 d8 => some ⟨.loadByte (.imm d8) (.reg .l), 8, 2, []⟩
  | .ldAtHlD8 d8 => some ⟨.loadByte (.imm d8) (.mem (s.pair .hl)), 12, 2, []⟩
  | .ldAD8 d8 => some ⟨.loadByte (.imm d8) (.reg .a), 8, 2, []⟩
  | .ldAtBcA => some ⟨.loadByte (.reg .a) (.mem (s.pair .bc)), 8, 1, []⟩
  | .ldAtDeA => some ⟨.loadByte (.reg .a) (.mem (s.pair .de)), 8, 1, []⟩
  | .ldAAtBc => some ⟨.loadByte (.mem (s.pair .bc)) (.reg .a), 8, 1, []⟩
  | .ldAAtDe => some ⟨.loadByte (.mem (s.pair .de)) (.reg .a), 8, 1, []⟩
  | .ldAtHlIncA => some ⟨.loadByte (.reg .a) (.mem (s.pair .hl)), 8, 1, [.incHl]⟩
  | .ldAAtHlInc => some ⟨.loadByte (.mem (s.pair .hl)) (.reg .a), 8, 1, [.incHl]⟩
  | .ldAtHlDecA => some ⟨.loadByte (.reg .a) (.mem (s.pair .hl)), 8, 1, [.decHl]⟩
  | .ldAAtHlDec => some ⟨.loadByte (.mem (s.pair .hl)) (.reg .a), 8, 1, [.decHl]⟩
  | .ldhAtA8A a8 => some ⟨.loadByte (.reg .a) (.mem (zeroPage s.cfg.zpExt a8)), 12, 2, []⟩
  | .ldhAAtA8 a8 => some ⟨.loadByte (.mem (zeroPage s.cfg.zpExt a8)) (.reg .a), 12, 2, []⟩
  | .ldAtCA => some ⟨.loadByte (.reg .a) (.mem (zeroPage s.cfg.zpExt s.c)), 8, 1, []⟩
  | .ldAAtC => some ⟨.loadByte (.mem (zeroPage s.cfg.zpExt s.c)) (.reg .a), 8, 1, []⟩
  | .ldAtA16A a16 => some ⟨.loadByte (.reg .a) (.mem a16), 16, 3, []⟩
  | .ldAAtA16 a16 => some ⟨.loadByte (.mem a16) (.reg .a), 16, 3, []⟩
  | .ldBcD16 d16 => some ⟨.loadWord (.val d16) (.pair .bc), 12, 3, []⟩
  | .ldDeD16 d16 => some ⟨.loadWord (.val d16) (.pair .de), 12, 3, []⟩
  | .ldHlD16 d16 => some ⟨.loadWord (.val d16) (.pair .hl), 12, 3, []⟩
  | .ldSpD16 d16 => some ⟨.loadWord (.val d16) .sp, 12, 3, []⟩
  | .ldAtA16Sp a16 => some ⟨.loadWord .sp (.mem a16), 20, 3, []⟩
  | .ldHlSpR8 r8 => some ⟨.loadWord (.val (s.sp + sext16 r8)) (.pair .hl), 12, 2, []⟩
  | .ldSpHl => some ⟨.loadWord (.pair .hl) .sp, 8, 1, []⟩
  | .pushBc => some ⟨.push (.pair .bc), 16, 1, []⟩
  | .pushDe => some ⟨.push (.pair .de), 16, 1, []⟩
  | .pushHl => some ⟨.push (.pair .hl), 16, 1, []⟩
  | .pushAf => some ⟨.push (.pair .af), 16, 1, []⟩
  | .popBc => some ⟨.pop (.pair .bc), 12, 1, []⟩
  | .popDe => some ⟨.pop (.pair .de), 12, 1, []⟩
  | .popHl => some ⟨.pop (.pair .hl), 12, 1, []⟩
  | .popAf => some ⟨.pop (.pair .af), 12, 1, []⟩
  | .unimplemented _ => none

/-- `exec` runs `execute` on the instruction's record. -/
theorem exec_eq_execute {i : Instr} {s : State} {n : Instruction} (h : record i s = some n) : exec i s = execute n s := by
  cases i <;> cases h <;> rfl

theorem record_length {i : Instr} {s : State} {n : Instruction} (h : record i s = some n) :
    n.length = (encode i).length := by
  cases i <;> cases h <;> rfl

/-- Only a byte with no handler has no record. -/
theorem record_none {i : Instr} {s : State} (h : record i s = none) : ∃ op, i = .unimplemented op := by
  cases i <;> first | exact ⟨_, rfl⟩ | cases h

end Sys2Proof.Machine
end

