-- ==== Sys2Proof/Laws/Registers.lean ====
section
/-! SUPPORT. Registers: reads after writes, through bytes and through pairs. -/

namespace Sys2Proof.Machine

theorem State.reg8_setReg8 (r q : Reg8) (v : Byte) (s : State) :
    (s.setReg8 r v).reg8 q = if q = r then v else s.reg8 q := by
  cases r <;> cases q <;> rfl

@[simp] theorem State.pair_setPair (p : Pair) (w : Word) (s : State) : (s.setPair p w).pair p = w := by
  cases p <;> exact wordOf_hi8_lo8 w

theorem State.pair_setPair_of_ne {p q : Pair} (h : q ≠ p) (w : Word) (s : State) :
    (s.setPair p w).pair q = s.pair q := by
  cases p <;> cases q <;> first | rfl | exact absurd rfl h

end Sys2Proof.Machine
end

