-- ==== Sys2Proof/Laws/Protocol.lean ====
section
/-! SUPPORT. What `execute` and a step can do, said once: later proofs cite these and do not unfold the protocol. -/

namespace Sys2Proof.Machine

theorem firstRefused_none {admits : Word → Bool} {cells : List Word} :
    firstRefused admits cells = none ↔ ∀ a ∈ cells, admits a = true := by
  simp [firstRefused]

@[simp] theorem admitsRead_flat (a : Word) : admitsRead .flat a = true := rfl

@[simp] theorem admitsWrite_flat (a : Word) : admitsWrite .flat a = true := rfl

@[simp] theorem runPost_a (p : PostEffect) (s : State) : (runPost p s).a = s.a := by cases p <;> simp [runPost]
@[simp] theorem runPost_f (p : PostEffect) (s : State) : (runPost p s).f = s.f := by cases p <;> simp [runPost]
@[simp] theorem runPost_b (p : PostEffect) (s : State) : (runPost p s).b = s.b := by cases p <;> simp [runPost]
@[simp] theorem runPost_c (p : PostEffect) (s : State) : (runPost p s).c = s.c := by cases p <;> simp [runPost]
@[simp] theorem runPost_d (p : PostEffect) (s : State) : (runPost p s).d = s.d := by cases p <;> simp [runPost]
@[simp] theorem runPost_e (p : PostEffect) (s : State) : (runPost p s).e = s.e := by cases p <;> simp [runPost]
@[simp] theorem runPost_sp (p : PostEffect) (s : State) : (runPost p s).sp = s.sp := by cases p <;> simp [runPost]
@[simp] theorem runPost_pc (p : PostEffect) (s : State) : (runPost p s).pc = s.pc := by cases p <;> simp [runPost]
@[simp] theorem runPost_mem (p : PostEffect) (s : State) : (runPost p s).mem = s.mem := by cases p <;> simp [runPost]
@[simp] theorem runPost_clk (p : PostEffect) (s : State) : (runPost p s).clk = s.clk := by cases p <;> simp [runPost]
@[simp] theorem runPost_fault (p : PostEffect) (s : State) : (runPost p s).fault = s.fault := by cases p <;> simp [runPost]
@[simp] theorem runPost_cfg (p : PostEffect) (s : State) : (runPost p s).cfg = s.cfg := by cases p <;> simp [runPost]

/-! Post-effects touch H and L alone (R116). -/

@[simp] theorem runPosts_a (ps : List PostEffect) (s : State) : (runPosts ps s).a = s.a := by
  induction ps generalizing s with
  | nil => rfl
  | cons p ps ih => simp [runPosts, ih]

@[simp] theorem runPosts_f (ps : List PostEffect) (s : State) : (runPosts ps s).f = s.f := by
  induction ps generalizing s with
  | nil => rfl
  | cons p ps ih => simp [runPosts, ih]

@[simp] theorem runPosts_b (ps : List PostEffect) (s : State) : (runPosts ps s).b = s.b := by
  induction ps generalizing s with
  | nil => rfl
  | cons p ps ih => simp [runPosts, ih]

@[simp] theorem runPosts_c (ps : List PostEffect) (s : State) : (runPosts ps s).c = s.c := by
  induction ps generalizing s with
  | nil => rfl
  | cons p ps ih => simp [runPosts, ih]

@[simp] theorem runPosts_d (ps : List PostEffect) (s : State) : (runPosts ps s).d = s.d := by
  induction ps generalizing s with
  | nil => rfl
  | cons p ps ih => simp [runPosts, ih]

@[simp] theorem runPosts_e (ps : List PostEffect) (s : State) : (runPosts ps s).e = s.e := by
  induction ps generalizing s with
  | nil => rfl
  | cons p ps ih => simp [runPosts, ih]

@[simp] theorem runPosts_sp (ps : List PostEffect) (s : State) : (runPosts ps s).sp = s.sp := by
  induction ps generalizing s with
  | nil => rfl
  | cons p ps ih => simp [runPosts, ih]

@[simp] theorem runPosts_pc (ps : List PostEffect) (s : State) : (runPosts ps s).pc = s.pc := by
  induction ps generalizing s with
  | nil => rfl
  | cons p ps ih => simp [runPosts, ih]

@[simp] theorem runPosts_mem (ps : List PostEffect) (s : State) : (runPosts ps s).mem = s.mem := by
  induction ps generalizing s with
  | nil => rfl
  | cons p ps ih => simp [runPosts, ih]

@[simp] theorem runPosts_clk (ps : List PostEffect) (s : State) : (runPosts ps s).clk = s.clk := by
  induction ps generalizing s with
  | nil => rfl
  | cons p ps ih => simp [runPosts, ih]

@[simp] theorem runPosts_fault (ps : List PostEffect) (s : State) : (runPosts ps s).fault = s.fault := by
  induction ps generalizing s with
  | nil => rfl
  | cons p ps ih => simp [runPosts, ih]

@[simp] theorem runPosts_cfg (ps : List PostEffect) (s : State) : (runPosts ps s).cfg = s.cfg := by
  induction ps generalizing s with
  | nil => rfl
  | cons p ps ih => simp [runPosts, ih]

theorem write8_frame (loc : Loc8) (v : Byte) (s : State) :
    (write8 loc v s).pc = s.pc ∧ (write8 loc v s).sp = s.sp ∧ (write8 loc v s).clk = s.clk ∧
    (write8 loc v s).fault = s.fault ∧ (write8 loc v s).cfg = s.cfg := by
  cases loc <;> simp [write8]

theorem write16_frame (loc : Loc16) (w : Word) (s : State) :
    (write16 loc w s).clk = s.clk ∧ (write16 loc w s).fault = s.fault ∧ (write16 loc w s).cfg = s.cfg := by
  cases loc <;> simp [write16]

/-- A primary effect leaves clk, the latch and the parameters (R118, R124). -/
theorem perform_frame (e : Effect) (s : State) :
    (perform e s).clk = s.clk ∧ (perform e s).fault = s.fault ∧ (perform e s).cfg = s.cfg := by
  cases e with
  | loadByte src dst => exact (write8_frame dst _ s).2.2
  | loadWord src dst => exact write16_frame dst _ s
  | push src => simp [perform]
  | pop dst => simpa [perform] using write16_frame dst _ s

theorem write8_wf (loc : Loc8) (v : Byte) {s : State} (h : s.mem.wf = true) : (write8 loc v s).mem.wf = true := by
  cases loc with
  | reg r => simpa [write8] using h
  | mem a => exact State.memWrite8_wf h a v
  | imm v => exact h

theorem write16_wf (loc : Loc16) (w : Word) {s : State} (h : s.mem.wf = true) : (write16 loc w s).mem.wf = true := by
  cases loc with
  | mem a => exact State.memWrite16_wf h a w
  | _ => simpa [write16] using h

/-- A primary effect keeps memory canonical. -/
theorem perform_wf (e : Effect) {s : State} (h : s.mem.wf = true) : (perform e s).mem.wf = true := by
  cases e with
  | loadByte src dst => exact write8_wf dst _ h
  | loadWord src dst => exact write16_wf dst _ h
  | push src => exact State.memWrite16_wf (s := s.setSp (s.sp - 2)) h _ _
  | pop dst => simpa [perform] using write16_wf dst _ h

@[simp] theorem complete_fault (n : Instruction) (s : State) : (complete n s).fault = s.fault := by
  simp [complete, perform_frame]

@[simp] theorem complete_cfg (n : Instruction) (s : State) : (complete n s).cfg = s.cfg := by
  simp [complete, perform_frame]

/-- The ticks of a completed instruction (R118). -/
@[simp] theorem complete_clk (n : Instruction) (s : State) :
    (complete n s).clk = s.clk + n.cycles + s.cfg.tickBias.val := by
  simp [complete, perform_frame]

@[simp] theorem complete_a (n : Instruction) (s : State) : (complete n s).a = (perform n.effect s).a := by simp [complete]
@[simp] theorem complete_f (n : Instruction) (s : State) : (complete n s).f = (perform n.effect s).f := by simp [complete]
@[simp] theorem complete_b (n : Instruction) (s : State) : (complete n s).b = (perform n.effect s).b := by simp [complete]
@[simp] theorem complete_c (n : Instruction) (s : State) : (complete n s).c = (perform n.effect s).c := by simp [complete]
@[simp] theorem complete_d (n : Instruction) (s : State) : (complete n s).d = (perform n.effect s).d := by simp [complete]
@[simp] theorem complete_e (n : Instruction) (s : State) : (complete n s).e = (perform n.effect s).e := by simp [complete]
@[simp] theorem complete_sp (n : Instruction) (s : State) : (complete n s).sp = (perform n.effect s).sp := by simp [complete]

/-- H and L of a completed instruction with no post-effect. -/
theorem complete_h {n : Instruction} (hn : n.post = []) (s : State) : (complete n s).h = (perform n.effect s).h := by
  simp [complete, hn, runPosts]

theorem complete_l {n : Instruction} (hn : n.post = []) (s : State) : (complete n s).l = (perform n.effect s).l := by
  simp [complete, hn, runPosts]

theorem complete_mem (n : Instruction) (s : State) : (complete n s).mem = (perform n.effect s).mem := by
  simp [complete]

theorem complete_wf (n : Instruction) {s : State} (h : s.mem.wf = true) : (complete n s).mem.wf = true := by
  rw [complete_mem]; exact perform_wf _ h

/-- The PC advance of a completed instruction whose primary effect does not write PC (R117). -/
theorem complete_pc (n : Instruction) {s : State} (h : (perform n.effect s).pc = s.pc) :
    (complete n s).pc = s.pc + BitVec.ofNat 16 n.length := by
  simp [complete, h]

/-- `execute` either latches the refused data access or completes (R313, R314). -/
theorem execute_cases (n : Instruction) (s : State) :
    (∃ r, refusedData n.effect s = some r ∧ execute n s = .next (s.raise r)) ∨
    (refusedData n.effect s = none ∧ execute n s = .next (complete n s)) := by
  unfold execute
  split <;> simp_all

/-- Where the policy admits every data access, `execute` completes. -/
theorem execute_of_admitted {n : Instruction} {s : State}
    (hr : ∀ a ∈ n.effect.readCells s, admitsRead s.cfg.memmap a = true)
    (hw : ∀ a ∈ n.effect.writeCells s, admitsWrite s.cfg.memmap a = true) :
    execute n s = .next (complete n s) := by
  simp [execute, refusedData, firstRefused_none.mpr hr, firstRefused_none.mpr hw]

/-- What a refused data access is: a cell the effect touches, which the policy refuses (R312, R315). -/
theorem refusedData_some {e : Effect} {s : State} {r : FaultRecord} (h : refusedData e s = some r) :
    (∃ a ∈ e.readCells s, admitsRead s.cfg.memmap a = false ∧ r = .invalidAddress a .read) ∨
    (∃ a ∈ e.writeCells s, admitsWrite s.cfg.memmap a = false ∧ r = .invalidAddress a .write) := by
  unfold refusedData at h
  split at h
  · rename_i a ha
    cases h
    exact .inl ⟨a, List.mem_of_find?_eq_some ha, by simpa using List.find?_some ha, rfl⟩
  · split at h
    · rename_i a ha
      cases h
      exact .inr ⟨a, List.mem_of_find?_eq_some ha, by simpa using List.find?_some ha, rfl⟩
    · cases h

/-- No instruction's primary effect writes PC (R26: "PC changes only by the advance"). -/
theorem record_keeps_pc {i : Instr} {s : State} {n : Instruction} (h : record i s = some n) :
    (perform n.effect s).pc = s.pc := by
  cases i <;> cases h <;> simp [perform, write8, write16]

/-- Every instruction is an `execute` of an Instruction whose length is its encoding's and whose effect leaves PC alone, or the
entry of UnimplementedOpcode (R111, R117, R290). -/
theorem exec_cases (i : Instr) (s : State) :
    (∃ n, record i s = some n ∧ exec i s = execute n s ∧ n.length = (encode i).length ∧
      (perform n.effect s).pc = s.pc) ∨
    (∃ op, i = .unimplemented op ∧ exec i s = .next (s.raise (.unimplementedOpcode op s.pc))) := by
  cases h : record i s with
  | none =>
    obtain ⟨op, rfl⟩ := record_none h
    exact .inr ⟨op, rfl, rfl⟩
  | some n => exact .inl ⟨n, rfl, exec_eq_execute h, record_length h, record_keeps_pc h⟩

/-- What a step can do (R131): nothing while latched; otherwise latch a refused fetch, or run the decoded instruction. -/
theorem step_cases {s t : State} (h : step s = .next t) :
    s.fault = none ∧
    ((∃ r, decodeNext s = .error r ∧ t = s.raise r) ∨ (∃ i, decodeNext s = .ok i ∧ exec i s = .next t)) := by
  unfold step at h
  split at h
  · cases h
  · rename_i hf
    refine ⟨hf, ?_⟩
    split at h
    · rename_i r hd
      exact .inl ⟨r, hd, by cases h; rfl⟩
    · rename_i i hd
      exact .inr ⟨i, hd, h⟩

/-- What an instruction that answers a next state did: all four phases of its record, or the latch alone (R313). -/
theorem exec_next_cases {i : Instr} {s t : State} (h : exec i s = .next t) :
    (∃ n, record i s = some n ∧ refusedData n.effect s = none ∧ t = complete n s) ∨ (∃ r, t = s.raise r) := by
  rcases exec_cases i s with ⟨n, hr, he, _⟩ | ⟨op, rfl, he⟩
  · rcases execute_cases n s with ⟨r, _, hx⟩ | ⟨hd, hx⟩
    · rw [he, hx] at h
      cases h
      exact .inr ⟨r, rfl⟩
    · rw [he, hx] at h
      cases h
      exact .inl ⟨n, hr, hd, rfl⟩
  · rw [he] at h
    cases h
    exact .inr ⟨_, rfl⟩

/-- What `decode_next` can answer: a refused fetch, or the bytes at PC decoded (R112, R315). -/
theorem decodeNext_cases (s : State) :
    (∃ a ∈ fetchCells s, admitsRead s.cfg.memmap a = false ∧ decodeNext s = .error (.invalidAddress a .fetch)) ∨
    ((∀ a ∈ fetchCells s, admitsRead s.cfg.memmap a = true) ∧ decodeNext s = .ok (decodeBytes s.cfg.admitTier2
      (s.memRead8 s.pc) (s.memRead8 (s.pc + 1)) (s.memRead8 (s.pc + 2)))) := by
  unfold decodeNext
  split
  · rename_i a ha
    exact .inl ⟨a, List.mem_of_find?_eq_some ha, by simpa using List.find?_some ha, rfl⟩
  · rename_i ha
    exact .inr ⟨firstRefused_none.mp ha, rfl⟩

end Sys2Proof.Machine
end

