-- ==== Sys2Proof/Laws/Runs.lean ====
section
/-! SUPPORT. One step given what the fetch answers, and runs of several steps. -/

namespace Sys2Proof.Machine

theorem canRead_iff {s : State} {cells : List Word} :
    s.CanRead cells ↔ ∀ a ∈ cells, admitsRead s.cfg.memmap a = true := List.all_eq_true

theorem canWrite_iff {s : State} {cells : List Word} :
    s.CanWrite cells ↔ ∀ a ∈ cells, admitsWrite s.cfg.memmap a = true := List.all_eq_true

/-- A running core whose fetch is refused latches the refusal (R131, R315). -/
theorem step_of_error {s : State} {r : FaultRecord} (hf : s.fault = none) (hd : decodeNext s = .error r) :
    step s = .next (s.raise r) := by
  simp only [step, hf, hd]

/-- A running core runs the instruction its fetch decodes (R131). -/
theorem step_of_ok {s : State} {i : Instr} (hf : s.fault = none) (hd : decodeNext s = .ok i) : step s = exec i s := by
  simp only [step, hf, hd]

/-- A latched core's step answers the latched record. -/
theorem step_of_latched {s : State} {r : FaultRecord} (hf : s.fault = some r) : step s = .fault (.halted r) := by
  simp only [step, hf, haltedStep]

/-- A run of one step more goes on from the step's next state. -/
theorem run_of_next (k : Nat) {s s' : State} (h : step s = .next s') :
    Host.Core.run core (k + 1) s = Host.Core.run core k s' := by
  have h' : core.step s = .next s' := h
  simp only [Host.Core.run]
  split <;> rename_i e <;> rw [h'] at e <;> cases e
  rfl

/-- A run that ends in a state took its first step. -/
theorem run_succ_cases {k : Nat} {s t : State} (h : Host.Core.run core (k + 1) s = .next t) :
    ∃ u : State, step s = .next u ∧ Host.Core.run core k u = .next t := by
  simp only [Host.Core.run] at h
  split at h
  · rename_i u e
    exact ⟨u, e, h⟩
  · cases h
  · cases h

/-- A run that ends in a state took its last step. -/
theorem run_last_step (k : Nat) {s t : State} (h : Host.Core.run core (k + 1) s = .next t) :
    ∃ u : State, Host.Core.run core k s = .next u ∧ step u = .next t := by
  induction k generalizing s with
  | zero =>
    obtain ⟨u, h1, h2⟩ := run_succ_cases h
    cases h2
    exact ⟨s, rfl, h1⟩
  | succ k ih =>
    obtain ⟨v, h1, h2⟩ := run_succ_cases h
    obtain ⟨u, h3, h4⟩ := ih h2
    exact ⟨u, (run_of_next k h1).trans h3, h4⟩

end Sys2Proof.Machine
end

