-- ==== Sys2Proof/Laws/Stores.lean ====
section
/-! SUPPORT. What the cells hold after an instruction: the bytes it stores, and every other byte as before. -/

namespace Sys2Proof.Machine

theorem byteAfter_nothing {i : Instr} {s : State} (h : bytesStored i s = []) (a : Word) : byteAfter i s a = s.cell a := by
  simp [byteAfter, h]

theorem byteAfter_byte {i : Instr} {s : State} {x : Word} {v : Byte} (h : bytesStored i s = [(x, v)]) (a : Word) :
    byteAfter i s a = if a = x then v else s.cell a := by
  unfold byteAfter
  rw [h]
  by_cases hx : a = x
  · simp [hx]
  · have hb : (x == a) = false := by simpa using fun e => hx e.symm
    simp [List.find?, hx, hb]

theorem byteAfter_word {i : Instr} {s : State} {x y : Word} {v w : Byte} (h : bytesStored i s = [(x, v), (y, w)]) (hxy : y ≠ x)
    (a : Word) : byteAfter i s a = if a = y then w else if a = x then v else s.cell a := by
  unfold byteAfter
  rw [h]
  by_cases hx : a = x
  · subst hx
    simp [hxy.symm]
  · have hb : (x == a) = false := by simpa using fun e => hx e.symm
    by_cases hy : a = y
    · simp [List.find?, hy, show (x == y) = false from hy ▸ hb]
    · have hc : (y == a) = false := by simpa using fun e => hy e.symm
      simp [List.find?, hx, hy, hb, hc]

/-- The cells after the primary effect of an instruction (R120 to R123). -/
theorem cell_perform {i : Instr} {s : State} {n : Instruction} (hw : s.mem.wf = true) (h : record i s = some n) (a : Word) :
    (perform n.effect s).cell a = byteAfter i s a := by
  have h8 (x : Word) (v : Byte) : (s.memWrite8 x v).cell a = if a = x then v else s.cell a := State.cell_memWrite8 hw x a v
  have h16 (x v u : Word) : (State.memWrite16 x v (s.setSp u)).cell a =
      if a = x + 1 then hi8 v else if a = x then lo8 v else s.cell a := State.cell_memWrite16 (s := s.setSp u) hw x a v
  have hne (x : Word) : x + 1 ≠ x := by intro e; bv_omega
  have hpush : s.sp - 2 + 1 = s.sp - 1 := by bv_omega
  have hne' : s.sp - 1 ≠ s.sp - 2 := by intro e; bv_omega
  cases i <;> cases h <;> simp only [perform, write8, write16, State.setReg8_cell, State.setPair_cell, State.setSp_cell, h8, h16, hpush] <;> first
    | rw [byteAfter_nothing rfl]
    | (rw [byteAfter_byte rfl]; rfl)
    | (rw [byteAfter_word rfl hne']; simp [read16, State.pair, State.fByte])
    | (rw [byteAfter_word rfl (hne _)]; exact State.cell_memWrite16 hw _ a _)

end Sys2Proof.Machine
end

