-- ==== Sys2Proof/Tests/Slice0.lean ====
section
/-! SUPPORT. The model's own tests. Expected values are the spec's: the Example lines of the per-opcode rules, the vectors of
95_test_vectors.md and the encodings of 30_encoding.md. -/

namespace Sys2Proof.Tests

open Sys2Proof Sys2Proof.Machine

-- One theorem at a time: each `decide +kernel` on its own thread would ask for more memory than the check allows.
set_option Elab.async false

/-- PC at 0x0100, as the spec's examples have it; every other register 0, `clk` 0, the hardware's parameters. -/
def base : State := { State.reset with pc := 0x0100 }

/-- A state with these bytes in memory. -/
def cells (l : List (Word × Byte)) (s : State) : State :=
  l.foldl (fun t x => t.memWrite8 x.1 x.2) s

/-- Whether an outcome is a next state that passes a check. -/
def check (o : Result) (p : State → Bool) : Bool :=
  match o with
  | .next t    => p t
  | .fault _   => false
  | .refused _ => false

/-- A passed check is a next state. -/
theorem check_next {o : Result} {p : State → Bool} (h : check o p = true) : ∃ t, o = .next t ∧ p t = true := by
  cases o with
  | next t    => exact ⟨t, rfl, h⟩
  | fault r   => cases h
  | refused r => cases h

/-- Whether one step gives a next state that passes a check. -/
def stepTo (s : State) (p : State → Bool) : Bool := check (step s) p

/-! The ill-formed terms the checks of WellFormed refuse, and the ones they admit. -/

/-- An `unimplemented` term may not carry a decodable byte. -/
theorem test_wellFormed_refuses_decodable_byte :
    ((Instr.unimplemented 0x40).wellFormed true || (Instr.unimplemented 0x31).wellFormed true ||
      (Instr.unimplemented 0xFA).wellFormed false) = false := by
  decide +kernel

/-- A tier-2 term needs `ADMIT_TIER2`: all eight. -/
theorem test_wellFormed_refuses_tier2 :
    (([.ldAtA16Sp 0xC100, .ldAAtBc, .ldDeD16 0x1234, .ldAtDeA, .ldAAtDe, .ldHlD16 0x1234, .ldLD8 0x99, .ldSpD16 0xCFFF] :
      List Instr).any (Instr.wellFormed false)) = false := by
  decide +kernel

theorem test_wellFormed_admits :
    (([.ldLD8 0x99, .ldBB, .ldBD8 0xFF, .popAf, .unimplemented 0x00, .unimplemented 0x76] : List Instr).all (Instr.wellFormed true) &&
      (Instr.unimplemented 0x2E).wellFormed false) = true := by
  decide +kernel

/-! The decoder's rejections, by name. -/

theorem test_decode_rejects_empty : (match decode true [] with
    | .error r => r == .noOpcode
    | .ok _ => false) = true := by
  decide +kernel

theorem test_decode_rejects_truncated : (match decode true [0x01, 0x34] with
    | .error r => r == .truncated 0x01
    | .ok _ => false) = true := by
  decide +kernel

/-! The host's placement. -/

theorem test_placed_word_runs : stepTo (State.reset.withFetchWord 16 0x4206) (fun t => t.b == 0x42 && t.pc == 0x0002) = true := by
  decide +kernel

theorem test_placed_word_clears_the_bytes_above :
    stepTo ((cells [(0x0001, 0xFF), (0x0002, 0xFF)] State.reset).withFetchWord 8 0x31)
      (fun t => t.sp == 0x0000 && t.pc == 0x0003) = true := by
  decide +kernel

/-- From reset with nothing placed the first step latches the byte 0x00 at 0x0000 (log 3). -/
theorem test_reset_alone_latches :
    stepTo State.reset (fun t => t.fault == some (.unimplementedOpcode 0x00 0x0000) && t.pc == 0x0000 && t.clk == 0) = true := by
  decide +kernel

/-! Decoding: every row of the opcode table, by a word written out from its encoding (operands 0x5A and 0xC35A). -/

theorem test_decode_low : ([
    (24, 0xC35A01), (8, 0x02), (16, 0x5A06), (24, 0xC35A08), (8, 0x0A), (16, 0x5A0E), (24, 0xC35A11), (8, 0x12),
    (16, 0x5A16), (8, 0x1A), (16, 0x5A1E), (24, 0xC35A21), (8, 0x22), (16, 0x5A26), (8, 0x2A), (16, 0x5A2E),
    (24, 0xC35A31), (8, 0x32), (16, 0x5A36), (8, 0x3A), (16, 0x5A3E)] : List (Nat × Nat)).map (fun x => decodeTableWord x.1 x.2) =
  ([
    .ldBcD16 0xC35A, .ldAtBcA, .ldBD8 0x5A, .ldAtA16Sp 0xC35A, .ldAAtBc, .ldCD8 0x5A, .ldDeD16 0xC35A, .ldAtDeA,
    .ldDD8 0x5A, .ldAAtDe, .ldED8 0x5A, .ldHlD16 0xC35A, .ldAtHlIncA, .ldHD8 0x5A, .ldAAtHlInc, .ldLD8 0x5A,
    .ldSpD16 0xC35A, .ldAtHlDecA, .ldAtHlD8 0x5A, .ldAAtHlDec, .ldAD8 0x5A] : List Instr).map some := by
  decide +kernel

theorem test_decode_40 : ([
    (8, 0x40), (8, 0x41), (8, 0x42), (8, 0x43), (8, 0x44), (8, 0x45), (8, 0x46), (8, 0x47)] : List (Nat × Nat)).map (fun x => decodeTableWord x.1 x.2) =
  ([
    .ldBB, .ldBC, .ldBD, .ldBE, .ldBH, .ldBL, .ldBAtHl, .ldBA] : List Instr).map some := by
  decide +kernel

theorem test_decode_48 : ([
    (8, 0x48), (8, 0x49), (8, 0x4A), (8, 0x4B), (8, 0x4C), (8, 0x4D), (8, 0x4E), (8, 0x4F)] : List (Nat × Nat)).map (fun x => decodeTableWord x.1 x.2) =
  ([
    .ldCB, .ldCC, .ldCD, .ldCE, .ldCH, .ldCL, .ldCAtHl, .ldCA] : List Instr).map some := by
  decide +kernel

theorem test_decode_50 : ([
    (8, 0x50), (8, 0x51), (8, 0x52), (8, 0x53), (8, 0x54), (8, 0x55), (8, 0x56), (8, 0x57)] : List (Nat × Nat)).map (fun x => decodeTableWord x.1 x.2) =
  ([
    .ldDB, .ldDC, .ldDD, .ldDE, .ldDH, .ldDL, .ldDAtHl, .ldDA] : List Instr).map some := by
  decide +kernel

theorem test_decode_58 : ([
    (8, 0x58), (8, 0x59), (8, 0x5A), (8, 0x5B), (8, 0x5C), (8, 0x5D), (8, 0x5E), (8, 0x5F)] : List (Nat × Nat)).map (fun x => decodeTableWord x.1 x.2) =
  ([
    .ldEB, .ldEC, .ldED, .ldEE, .ldEH, .ldEL, .ldEAtHl, .ldEA] : List Instr).map some := by
  decide +kernel

theorem test_decode_60 : ([
    (8, 0x60), (8, 0x61), (8, 0x62), (8, 0x63), (8, 0x64), (8, 0x65), (8, 0x66), (8, 0x67)] : List (Nat × Nat)).map (fun x => decodeTableWord x.1 x.2) =
  ([
    .ldHB, .ldHC, .ldHD, .ldHE, .ldHH, .ldHL, .ldHAtHl, .ldHA] : List Instr).map some := by
  decide +kernel

theorem test_decode_68 : ([
    (8, 0x68), (8, 0x69), (8, 0x6A), (8, 0x6B), (8, 0x6C), (8, 0x6D), (8, 0x6E), (8, 0x6F)] : List (Nat × Nat)).map (fun x => decodeTableWord x.1 x.2) =
  ([
    .ldLB, .ldLC, .ldLD, .ldLE, .ldLH, .ldLL, .ldLAtHl, .ldLA] : List Instr).map some := by
  decide +kernel

theorem test_decode_70 : ([
    (8, 0x70), (8, 0x71), (8, 0x72), (8, 0x73), (8, 0x74), (8, 0x75), (8, 0x77)] : List (Nat × Nat)).map (fun x => decodeTableWord x.1 x.2) =
  ([
    .ldAtHlB, .ldAtHlC, .ldAtHlD, .ldAtHlE, .ldAtHlH, .ldAtHlL, .ldAtHlA] : List Instr).map some := by
  decide +kernel

theorem test_decode_78 : ([
    (8, 0x78), (8, 0x79), (8, 0x7A), (8, 0x7B), (8, 0x7C), (8, 0x7D), (8, 0x7E), (8, 0x7F)] : List (Nat × Nat)).map (fun x => decodeTableWord x.1 x.2) =
  ([
    .ldAB, .ldAC, .ldAD, .ldAE, .ldAH, .ldAL, .ldAAtHl, .ldAA] : List Instr).map some := by
  decide +kernel

theorem test_decode_high : ([
    (8, 0xC1), (8, 0xC5), (8, 0xD1), (8, 0xD5), (16, 0x5AE0), (8, 0xE1), (8, 0xE2), (8, 0xE5), (24, 0xC35AEA),
    (16, 0x5AF0), (8, 0xF1), (8, 0xF2), (8, 0xF5), (16, 0x5AF8), (8, 0xF9), (24, 0xC35AFA)] : List (Nat × Nat)).map (fun x => decodeTableWord x.1 x.2) =
  ([
    .popBc, .pushBc, .popDe, .pushDe, .ldhAtA8A 0x5A, .popHl, .ldAtCA, .pushHl, .ldAtA16A 0xC35A, .ldhAAtA8 0x5A,
    .popAf, .ldAAtC, .pushAf, .ldHlSpR8 0x5A, .ldSpHl, .ldAAtA16 0xC35A] : List Instr).map some := by
  decide +kernel

/-- The 156 rows UNIMPLEMENTED (R291 to R299): 0x80 to 0xBF, and the bytes listed. -/
theorem test_decode_unimplemented :
  (((List.range 64).map (fun k => 0x80 + k)) ++ ([
    0x00, 0x03, 0x04, 0x05, 0x07, 0x09, 0x0B, 0x0C, 0x0D, 0x0F, 0x10, 0x13, 0x14, 0x15, 0x17, 0x18, 0x19, 0x1B, 0x1C,
    0x1D, 0x1F, 0x20, 0x23, 0x24, 0x25, 0x27, 0x28, 0x29, 0x2B, 0x2C, 0x2D, 0x2F, 0x30, 0x33, 0x34, 0x35, 0x37, 0x38,
    0x39, 0x3B, 0x3C, 0x3D, 0x3F, 0x76, 0xC0, 0xC2, 0xC3, 0xC4, 0xC6, 0xC7, 0xC8, 0xC9, 0xCA, 0xCB, 0xCC, 0xCD, 0xCE,
    0xCF, 0xD0, 0xD2, 0xD3, 0xD4, 0xD6, 0xD7, 0xD8, 0xD9, 0xDA, 0xDB, 0xDC, 0xDD, 0xDE, 0xDF, 0xE3, 0xE4, 0xE6, 0xE7,
    0xE8, 0xE9, 0xEB, 0xEC, 0xED, 0xEE, 0xEF, 0xF3, 0xF4, 0xF6, 0xF7, 0xFB, 0xFC, 0xFD, 0xFE, 0xFF] : List Nat)).all
    (fun w => decodeTableWord 8 w == some (Instr.unimplemented (BitVec.ofNat 8 w))) = true := by
  decide +kernel

/-! One step each. -/

/-- The Example lines of R144 to R151. -/
theorem test_examples_ld_b : ([
    stepTo (cells [(0x0100, 0x40)] { base with b := 0xE5 })
      (fun t => t.b == 0xE5 && t.pc == 0x0101 && t.clk == 4 && t.fault.isNone),
    stepTo (cells [(0x0100, 0x41)] { base with c := 0xE4 })
      (fun t => t.b == 0xE4 && t.c == 0xE4 && t.pc == 0x0101 && t.clk == 4 && t.fault.isNone),
    stepTo (cells [(0x0100, 0x42)] { base with d := 0xE7 })
      (fun t => t.b == 0xE7 && t.d == 0xE7 && t.pc == 0x0101 && t.clk == 4 && t.fault.isNone),
    stepTo (cells [(0x0100, 0x43)] { base with e := 0xE6 })
      (fun t => t.b == 0xE6 && t.e == 0xE6 && t.pc == 0x0101 && t.clk == 4 && t.fault.isNone),
    stepTo (cells [(0x0100, 0x44)] { base with h := 0xE1 })
      (fun t => t.b == 0xE1 && t.h == 0xE1 && t.pc == 0x0101 && t.clk == 4 && t.fault.isNone),
    stepTo (cells [(0x0100, 0x45)] { base with l := 0xE0 })
      (fun t => t.b == 0xE0 && t.l == 0xE0 && t.pc == 0x0101 && t.clk == 4 && t.fault.isNone),
    stepTo (cells [(0x0100, 0x46), (0xC000, 0xE3)] { base with h := 0xC0 })
      (fun t => t.b == 0xE3 && t.h == 0xC0 && t.pc == 0x0101 && t.clk == 8 && t.fault.isNone),
    stepTo (cells [(0x0100, 0x47)] { base with a := 0xE2 })
      (fun t => t.a == 0xE2 && t.b == 0xE2 && t.pc == 0x0101 && t.clk == 4 && t.fault.isNone)] : List Bool).all id = true := by
  decide +kernel

/-- The Example lines of R152 to R159. -/
theorem test_examples_ld_c : ([
    stepTo (cells [(0x0100, 0x48)] { base with b := 0xED })
      (fun t => t.b == 0xED && t.c == 0xED && t.pc == 0x0101 && t.clk == 4 && t.fault.isNone),
    stepTo (cells [(0x0100, 0x49)] { base with c := 0xEC })
      (fun t => t.c == 0xEC && t.pc == 0x0101 && t.clk == 4 && t.fault.isNone),
    stepTo (cells [(0x0100, 0x4A)] { base with d := 0xEF })
      (fun t => t.c == 0xEF && t.d == 0xEF && t.pc == 0x0101 && t.clk == 4 && t.fault.isNone),
    stepTo (cells [(0x0100, 0x4B)] { base with e := 0xEE })
      (fun t => t.c == 0xEE && t.e == 0xEE && t.pc == 0x0101 && t.clk == 4 && t.fault.isNone),
    stepTo (cells [(0x0100, 0x4C)] { base with h := 0xE9 })
      (fun t => t.c == 0xE9 && t.h == 0xE9 && t.pc == 0x0101 && t.clk == 4 && t.fault.isNone),
    stepTo (cells [(0x0100, 0x4D)] { base with l := 0xE8 })
      (fun t => t.c == 0xE8 && t.l == 0xE8 && t.pc == 0x0101 && t.clk == 4 && t.fault.isNone),
    stepTo (cells [(0x0100, 0x4E), (0xC000, 0xEB)] { base with h := 0xC0 })
      (fun t => t.c == 0xEB && t.h == 0xC0 && t.pc == 0x0101 && t.clk == 8 && t.fault.isNone),
    stepTo (cells [(0x0100, 0x4F)] { base with a := 0xEA })
      (fun t => t.a == 0xEA && t.c == 0xEA && t.pc == 0x0101 && t.clk == 4 && t.fault.isNone)] : List Bool).all id = true := by
  decide +kernel

/-- The Example lines of R160 to R167. -/
theorem test_examples_ld_d : ([
    stepTo (cells [(0x0100, 0x50)] { base with b := 0xF5 })
      (fun t => t.b == 0xF5 && t.d == 0xF5 && t.pc == 0x0101 && t.clk == 4 && t.fault.isNone),
    stepTo (cells [(0x0100, 0x51)] { base with c := 0xF4 })
      (fun t => t.c == 0xF4 && t.d == 0xF4 && t.pc == 0x0101 && t.clk == 4 && t.fault.isNone),
    stepTo (cells [(0x0100, 0x52)] { base with d := 0xF7 })
      (fun t => t.d == 0xF7 && t.pc == 0x0101 && t.clk == 4 && t.fault.isNone),
    stepTo (cells [(0x0100, 0x53)] { base with e := 0xF6 })
      (fun t => t.d == 0xF6 && t.e == 0xF6 && t.pc == 0x0101 && t.clk == 4 && t.fault.isNone),
    stepTo (cells [(0x0100, 0x54)] { base with h := 0xF1 })
      (fun t => t.d == 0xF1 && t.h == 0xF1 && t.pc == 0x0101 && t.clk == 4 && t.fault.isNone),
    stepTo (cells [(0x0100, 0x55)] { base with l := 0xF0 })
      (fun t => t.d == 0xF0 && t.l == 0xF0 && t.pc == 0x0101 && t.clk == 4 && t.fault.isNone),
    stepTo (cells [(0x0100, 0x56), (0xC000, 0xF3)] { base with h := 0xC0 })
      (fun t => t.d == 0xF3 && t.h == 0xC0 && t.pc == 0x0101 && t.clk == 8 && t.fault.isNone),
    stepTo (cells [(0x0100, 0x57)] { base with a := 0xF2 })
      (fun t => t.a == 0xF2 && t.d == 0xF2 && t.pc == 0x0101 && t.clk == 4 && t.fault.isNone)] : List Bool).all id = true := by
  decide +kernel

/-- The Example lines of R168 to R175. -/
theorem test_examples_ld_e : ([
    stepTo (cells [(0x0100, 0x58)] { base with b := 0xFD })
      (fun t => t.b == 0xFD && t.e == 0xFD && t.pc == 0x0101 && t.clk == 4 && t.fault.isNone),
    stepTo (cells [(0x0100, 0x59)] { base with c := 0xFC })
      (fun t => t.c == 0xFC && t.e == 0xFC && t.pc == 0x0101 && t.clk == 4 && t.fault.isNone),
    stepTo (cells [(0x0100, 0x5A)] { base with d := 0xFF })
      (fun t => t.d == 0xFF && t.e == 0xFF && t.pc == 0x0101 && t.clk == 4 && t.fault.isNone),
    stepTo (cells [(0x0100, 0x5B)] { base with e := 0xFE })
      (fun t => t.e == 0xFE && t.pc == 0x0101 && t.clk == 4 && t.fault.isNone),
    stepTo (cells [(0x0100, 0x5C)] { base with h := 0xF9 })
      (fun t => t.e == 0xF9 && t.h == 0xF9 && t.pc == 0x0101 && t.clk == 4 && t.fault.isNone),
    stepTo (cells [(0x0100, 0x5D)] { base with l := 0xF8 })
      (fun t => t.e == 0xF8 && t.l == 0xF8 && t.pc == 0x0101 && t.clk == 4 && t.fault.isNone),
    stepTo (cells [(0x0100, 0x5E), (0xC000, 0xFB)] { base with h := 0xC0 })
      (fun t => t.e == 0xFB && t.h == 0xC0 && t.pc == 0x0101 && t.clk == 8 && t.fault.isNone),
    stepTo (cells [(0x0100, 0x5F)] { base with a := 0xFA })
      (fun t => t.a == 0xFA && t.e == 0xFA && t.pc == 0x0101 && t.clk == 4 && t.fault.isNone)] : List Bool).all id = true := by
  decide +kernel

/-- The Example lines of R176 to R183. -/
theorem test_examples_ld_h : ([
    stepTo (cells [(0x0100, 0x60)] { base with b := 0xC5, h := 0xC0, l := 0x34 })
      (fun t => t.b == 0xC5 && t.h == 0xC5 && t.l == 0x34 && t.pc == 0x0101 && t.clk == 4 && t.fault.isNone),
    stepTo (cells [(0x0100, 0x61)] { base with c := 0xC4, h := 0xC0, l := 0x34 })
      (fun t => t.c == 0xC4 && t.h == 0xC4 && t.l == 0x34 && t.pc == 0x0101 && t.clk == 4 && t.fault.isNone),
    stepTo (cells [(0x0100, 0x62)] { base with d := 0xC7, h := 0xC0, l := 0x34 })
      (fun t => t.d == 0xC7 && t.h == 0xC7 && t.l == 0x34 && t.pc == 0x0101 && t.clk == 4 && t.fault.isNone),
    stepTo (cells [(0x0100, 0x63)] { base with e := 0xC6, h := 0xC0, l := 0x34 })
      (fun t => t.e == 0xC6 && t.h == 0xC6 && t.l == 0x34 && t.pc == 0x0101 && t.clk == 4 && t.fault.isNone),
    stepTo (cells [(0x0100, 0x64)] { base with h := 0xC1 })
      (fun t => t.h == 0xC1 && t.pc == 0x0101 && t.clk == 4 && t.fault.isNone),
    stepTo (cells [(0x0100, 0x65)] { base with h := 0x12, l := 0xC0 })
      (fun t => t.h == 0xC0 && t.l == 0xC0 && t.pc == 0x0101 && t.clk == 4 && t.fault.isNone),
    stepTo (cells [(0x0100, 0x66), (0xC000, 0xC3)] { base with h := 0xC0 })
      (fun t => t.h == 0xC3 && t.pc == 0x0101 && t.clk == 8 && t.fault.isNone),
    stepTo (cells [(0x0100, 0x67)] { base with a := 0xC2, h := 0xC0, l := 0x34 })
      (fun t => t.a == 0xC2 && t.h == 0xC2 && t.l == 0x34 && t.pc == 0x0101 && t.clk == 4 && t.fault.isNone)] : List Bool).all id = true := by
  decide +kernel

/-- The Example lines of R184 to R191. -/
theorem test_examples_ld_l : ([
    stepTo (cells [(0x0100, 0x68)] { base with b := 0xCD, h := 0xC0, l := 0x34 })
      (fun t => t.b == 0xCD && t.h == 0xC0 && t.l == 0xCD && t.pc == 0x0101 && t.clk == 4 && t.fault.isNone),
    stepTo (cells [(0x0100, 0x69)] { base with c := 0xCC, h := 0xC0, l := 0x34 })
      (fun t => t.c == 0xCC && t.h == 0xC0 && t.l == 0xCC && t.pc == 0x0101 && t.clk == 4 && t.fault.isNone),
    stepTo (cells [(0x0100, 0x6A)] { base with d := 0xCF, h := 0xC0, l := 0x34 })
      (fun t => t.d == 0xCF && t.h == 0xC0 && t.l == 0xCF && t.pc == 0x0101 && t.clk == 4 && t.fault.isNone),
    stepTo (cells [(0x0100, 0x6B)] { base with e := 0xCE, h := 0xC0, l := 0x34 })
      (fun t => t.e == 0xCE && t.h == 0xC0 && t.l == 0xCE && t.pc == 0x0101 && t.clk == 4 && t.fault.isNone),
    stepTo (cells [(0x0100, 0x6C)] { base with h := 0xC9, l := 0x12 })
      (fun t => t.h == 0xC9 && t.l == 0xC9 && t.pc == 0x0101 && t.clk == 4 && t.fault.isNone),
    stepTo (cells [(0x0100, 0x6D)] { base with l := 0xC8 })
      (fun t => t.l == 0xC8 && t.pc == 0x0101 && t.clk == 4 && t.fault.isNone),
    stepTo (cells [(0x0100, 0x6E), (0xC000, 0xCB)] { base with h := 0xC0 })
      (fun t => t.h == 0xC0 && t.l == 0xCB && t.pc == 0x0101 && t.clk == 8 && t.fault.isNone),
    stepTo (cells [(0x0100, 0x6F)] { base with a := 0xCA, h := 0xC0, l := 0x34 })
      (fun t => t.a == 0xCA && t.h == 0xC0 && t.l == 0xCA && t.pc == 0x0101 && t.clk == 4 && t.fault.isNone)] : List Bool).all id = true := by
  decide +kernel

/-- The Example lines of R192 to R198. -/
theorem test_examples_ld_at_hl : ([
    stepTo (cells [(0x0100, 0x70)] { base with b := 0xD5, h := 0xC0 })
      (fun t => t.b == 0xD5 && t.h == 0xC0 && t.memRead8 0xC000 == 0xD5 && t.pc == 0x0101 && t.clk == 8 && t.fault.isNone),
    stepTo (cells [(0x0100, 0x71)] { base with c := 0xD4, h := 0xC0 })
      (fun t => t.c == 0xD4 && t.h == 0xC0 && t.memRead8 0xC000 == 0xD4 && t.pc == 0x0101 && t.clk == 8 && t.fault.isNone),
    stepTo (cells [(0x0100, 0x72)] { base with d := 0xD7, h := 0xC0 })
      (fun t => t.d == 0xD7 && t.h == 0xC0 && t.memRead8 0xC000 == 0xD7 && t.pc == 0x0101 && t.clk == 8 && t.fault.isNone),
    stepTo (cells [(0x0100, 0x73)] { base with e := 0xD6, h := 0xC0 })
      (fun t => t.e == 0xD6 && t.h == 0xC0 && t.memRead8 0xC000 == 0xD6 && t.pc == 0x0101 && t.clk == 8 && t.fault.isNone),
    stepTo (cells [(0x0100, 0x74)] { base with h := 0xC0, l := 0xD1 })
      (fun t => t.h == 0xC0 && t.l == 0xD1 && t.memRead8 0xC0D1 == 0xC0 && t.pc == 0x0101 && t.clk == 8 && t.fault.isNone),
    stepTo (cells [(0x0100, 0x75)] { base with h := 0xC0, l := 0xD0 })
      (fun t => t.h == 0xC0 && t.l == 0xD0 && t.memRead8 0xC0D0 == 0xD0 && t.pc == 0x0101 && t.clk == 8 && t.fault.isNone),
    stepTo (cells [(0x0100, 0x77)] { base with a := 0xD2, h := 0xC0 })
      (fun t => t.a == 0xD2 && t.h == 0xC0 && t.memRead8 0xC000 == 0xD2 && t.pc == 0x0101 && t.clk == 8 && t.fault.isNone)] : List Bool).all id = true := by
  decide +kernel

/-- The Example lines of R199 to R206. -/
theorem test_examples_ld_a : ([
    stepTo (cells [(0x0100, 0x78)] { base with b := 0xDD })
      (fun t => t.a == 0xDD && t.b == 0xDD && t.pc == 0x0101 && t.clk == 4 && t.fault.isNone),
    stepTo (cells [(0x0100, 0x79)] { base with c := 0xDC })
      (fun t => t.a == 0xDC && t.c == 0xDC && t.pc == 0x0101 && t.clk == 4 && t.fault.isNone),
    stepTo (cells [(0x0100, 0x7A)] { base with d := 0xDF })
      (fun t => t.a == 0xDF && t.d == 0xDF && t.pc == 0x0101 && t.clk == 4 && t.fault.isNone),
    stepTo (cells [(0x0100, 0x7B)] { base with e := 0xDE })
      (fun t => t.a == 0xDE && t.e == 0xDE && t.pc == 0x0101 && t.clk == 4 && t.fault.isNone),
    stepTo (cells [(0x0100, 0x7C)] { base with h := 0xD9 })
      (fun t => t.a == 0xD9 && t.h == 0xD9 && t.pc == 0x0101 && t.clk == 4 && t.fault.isNone),
    stepTo (cells [(0x0100, 0x7D)] { base with l := 0xD8 })
      (fun t => t.a == 0xD8 && t.l == 0xD8 && t.pc == 0x0101 && t.clk == 4 && t.fault.isNone),
    stepTo (cells [(0x0100, 0x7E), (0xC000, 0xDB)] { base with h := 0xC0 })
      (fun t => t.a == 0xDB && t.h == 0xC0 && t.pc == 0x0101 && t.clk == 8 && t.fault.isNone),
    stepTo (cells [(0x0100, 0x7F)] { base with a := 0xDA })
      (fun t => t.a == 0xDA && t.pc == 0x0101 && t.clk == 4 && t.fault.isNone)] : List Bool).all id = true := by
  decide +kernel

/-- The Example lines of R212 to R219. -/
theorem test_examples_immediate_byte : ([
    stepTo (cells [(0x0100, 0x06), (0x0101, 0x42)] base)
      (fun t => t.b == 0x42 && t.pc == 0x0102 && t.clk == 8 && t.fault.isNone),
    stepTo (cells [(0x0100, 0x0E), (0x0101, 0x7F)] base)
      (fun t => t.c == 0x7F && t.pc == 0x0102 && t.clk == 8 && t.fault.isNone),
    stepTo (cells [(0x0100, 0x16), (0x0101, 0xC1)] base)
      (fun t => t.d == 0xC1 && t.pc == 0x0102 && t.clk == 8 && t.fault.isNone),
    stepTo (cells [(0x0100, 0x1E)] { base with e := 0xFF })
      (fun t => t.e == 0x00 && t.pc == 0x0102 && t.clk == 8 && t.fault.isNone),
    stepTo (cells [(0x0100, 0x26), (0x0101, 0xC0)] { base with h := 0x12, l := 0x34 })
      (fun t => t.h == 0xC0 && t.l == 0x34 && t.pc == 0x0102 && t.clk == 8 && t.fault.isNone),
    stepTo (cells [(0x0100, 0x2E), (0x0101, 0x99)] { base with h := 0xC0 })
      (fun t => t.h == 0xC0 && t.l == 0x99 && t.pc == 0x0102 && t.clk == 8 && t.fault.isNone),
    stepTo (cells [(0x0100, 0x36), (0x0101, 0xAB)] { base with h := 0xC1, l := 0x23 })
      (fun t => t.h == 0xC1 && t.l == 0x23 && t.memRead8 0xC123 == 0xAB && t.pc == 0x0102 && t.clk == 12 && t.fault.isNone),
    stepTo (cells [(0x0100, 0x3E), (0x0101, 0x05)] { base with a := 0xFF, f := 0xB0 })
      (fun t => t.a == 0x05 && t.f == 0xB0 && t.pc == 0x0102 && t.clk == 8 && t.fault.isNone)] : List Bool).all id = true := by
  decide +kernel

/-- The Example lines of R220 to R227. -/
theorem test_examples_indirect : ([
    stepTo (cells [(0x0100, 0x02)] { base with a := 0x77, b := 0xC0, c := 0x10 })
      (fun t => t.a == 0x77 && t.b == 0xC0 && t.c == 0x10 && t.memRead8 0xC010 == 0x77 && t.pc == 0x0101 && t.clk == 8 && t.fault.isNone),
    stepTo (cells [(0x0100, 0x12), (0xC100, 0xFE)] { base with a := 0xFE, d := 0xC1 })
      (fun t => t.a == 0xFE && t.d == 0xC1 && t.pc == 0x0101 && t.clk == 8 && t.fault.isNone),
    stepTo (cells [(0x0100, 0x0A), (0xC010, 0x3C)] { base with b := 0xC0, c := 0x10 })
      (fun t => t.a == 0x3C && t.b == 0xC0 && t.c == 0x10 && t.pc == 0x0101 && t.clk == 8 && t.fault.isNone),
    stepTo (cells [(0x0100, 0x1A), (0xC100, 0xFE)] { base with d := 0xC1 })
      (fun t => t.a == 0xFE && t.d == 0xC1 && t.pc == 0x0101 && t.clk == 8 && t.fault.isNone),
    stepTo (cells [(0x0100, 0x22)] { base with a := 0x05, h := 0xC0 })
      (fun t => t.a == 0x05 && t.h == 0xC0 && t.l == 0x01 && t.memRead8 0xC000 == 0x05 && t.pc == 0x0101 && t.clk == 8 && t.fault.isNone),
    stepTo (cells [(0x0100, 0x2A), (0xC0FF, 0x9C)] { base with h := 0xC0, l := 0xFF })
      (fun t => t.a == 0x9C && t.h == 0xC1 && t.l == 0x00 && t.pc == 0x0101 && t.clk == 8 && t.fault.isNone),
    stepTo (cells [(0x0100, 0x32)] { base with a := 0x07, h := 0xC0, l := 0x01 })
      (fun t => t.a == 0x07 && t.h == 0xC0 && t.l == 0x00 && t.memRead8 0xC001 == 0x07 && t.pc == 0x0101 && t.clk == 8 && t.fault.isNone),
    stepTo (cells [(0x0000, 0x11), (0x0100, 0x3A)] base)
      (fun t => t.a == 0x11 && t.h == 0xFF && t.l == 0xFF && t.pc == 0x0101 && t.clk == 8 && t.fault.isNone)] : List Bool).all id = true := by
  decide +kernel

/-- The Example lines of R229 to R234. -/
theorem test_examples_zero_page_and_absolute : ([
    stepTo (cells [(0x0100, 0xE0), (0x0101, 0x80)] { base with a := 0x5A })
      (fun t => t.a == 0x5A && t.memRead8 0xFE80 == 0x5A && t.pc == 0x0102 && t.clk == 12 && t.fault.isNone),
    stepTo (cells [(0x0100, 0xF0), (0x0101, 0x10), (0xFF10, 0x5A)] base)
      (fun t => t.a == 0x5A && t.pc == 0x0102 && t.clk == 12 && t.fault.isNone),
    stepTo (cells [(0x0100, 0xE2)] { base with a := 0xA5, c := 0x7F })
      (fun t => t.a == 0xA5 && t.c == 0x7F && t.memRead8 0xFF7F == 0xA5 && t.pc == 0x0101 && t.clk == 8 && t.fault.isNone),
    stepTo (cells [(0x0100, 0xF2), (0xFEFF, 0x21)] { base with c := 0xFF })
      (fun t => t.a == 0x21 && t.c == 0xFF && t.pc == 0x0101 && t.clk == 8 && t.fault.isNone),
    stepTo (cells [(0x0100, 0xEA), (0x0101, 0x50), (0x0102, 0xC0)] { base with a := 0xA5 })
      (fun t => t.a == 0xA5 && t.memRead8 0xC050 == 0xA5 && t.pc == 0x0103 && t.clk == 16 && t.fault.isNone),
    stepTo (cells [(0x0100, 0xFA), (0x0101, 0x50), (0x0102, 0xC0), (0xC050, 0xA5)] base)
      (fun t => t.a == 0xA5 && t.pc == 0x0103 && t.clk == 16 && t.fault.isNone)] : List Bool).all id = true := by
  decide +kernel

/-- The Example lines of R251 to R257. -/
theorem test_examples_load_word : ([
    stepTo (cells [(0x0100, 0x01), (0x0101, 0x34), (0x0102, 0x12)] base)
      (fun t => t.b == 0x12 && t.c == 0x34 && t.pc == 0x0103 && t.clk == 12 && t.fault.isNone),
    stepTo (cells [(0x0100, 0x11), (0x0102, 0xC1)] base)
      (fun t => t.d == 0xC1 && t.pc == 0x0103 && t.clk == 12 && t.fault.isNone),
    stepTo (cells [(0x0100, 0x21), (0x0101, 0x34), (0x0102, 0x12)] base)
      (fun t => t.h == 0x12 && t.l == 0x34 && t.pc == 0x0103 && t.clk == 12 && t.fault.isNone),
    stepTo (cells [(0x0100, 0x31), (0x0102, 0xD0)] base)
      (fun t => t.sp == 0xD000 && t.pc == 0x0103 && t.clk == 12 && t.fault.isNone),
    stepTo (cells [(0x0100, 0x08), (0x0102, 0xC1)] { base with sp := 0xCFFE })
      (fun t => t.sp == 0xCFFE && t.memRead8 0xC100 == 0xFE && t.memRead8 0xC101 == 0xCF && t.pc == 0x0103 && t.clk == 20 && t.fault.isNone),
    stepTo (cells [(0x0100, 0xF8), (0x0101, 0xFE)] { base with sp := 0xFFFE })
      (fun t => t.h == 0xFF && t.l == 0xFC && t.sp == 0xFFFE && t.pc == 0x0102 && t.clk == 12 && t.fault.isNone),
    stepTo (cells [(0x0100, 0xF9)] { base with h := 0xFF, l := 0xFE })
      (fun t => t.h == 0xFF && t.l == 0xFE && t.sp == 0xFFFE && t.pc == 0x0101 && t.clk == 8 && t.fault.isNone)] : List Bool).all id = true := by
  decide +kernel

/-- The Example lines of R272 to R279. -/
theorem test_examples_push_pop : ([
    stepTo (cells [(0x0100, 0xC5)] { base with b := 0x12, c := 0x34, sp := 0xFFFE })
      (fun t => t.b == 0x12 && t.c == 0x34 && t.sp == 0xFFFC && t.memRead8 0xFFFC == 0x34 && t.memRead8 0xFFFD == 0x12 && t.pc == 0x0101 && t.clk == 16 && t.fault.isNone),
    stepTo (cells [(0x0100, 0xD5)] { base with d := 0xBE, e := 0xEF, sp := 0x0001 })
      (fun t => t.d == 0xBE && t.e == 0xEF && t.sp == 0xFFFF && t.memRead8 0x0000 == 0xBE && t.memRead8 0xFFFF == 0xEF && t.pc == 0x0101 && t.clk == 16 && t.fault.isNone),
    stepTo (cells [(0x0100, 0xE5)] { base with h := 0x12, l := 0x34, sp := 0xD000 })
      (fun t => t.h == 0x12 && t.l == 0x34 && t.sp == 0xCFFE && t.memRead8 0xCFFE == 0x34 && t.memRead8 0xCFFF == 0x12 && t.pc == 0x0101 && t.clk == 16 && t.fault.isNone),
    stepTo (cells [(0x0100, 0xF5)] { base with a := 0x12, f := 0x3F, sp := 0xD000 })
      (fun t => t.a == 0x12 && t.f == 0x3F && t.sp == 0xCFFE && t.memRead8 0xCFFE == 0x3F && t.memRead8 0xCFFF == 0x12 && t.pc == 0x0101 && t.clk == 16 && t.fault.isNone),
    stepTo (cells [(0x0100, 0xC1), (0xFFFC, 0x34), (0xFFFD, 0x12)] { base with sp := 0xFFFC })
      (fun t => t.b == 0x12 && t.c == 0x34 && t.sp == 0xFFFE && t.pc == 0x0101 && t.clk == 12 && t.fault.isNone),
    stepTo (cells [(0x0101, 0xD1), (0xFFFC, 0x34), (0xFFFD, 0x12)] { base with sp := 0xFFFC, pc := 0x0101, clk := 16 })
      (fun t => t.d == 0x12 && t.e == 0x34 && t.sp == 0xFFFE && t.pc == 0x0102 && t.clk == 28 && t.fault.isNone),
    stepTo (cells [(0x0000, 0xAB), (0x0100, 0xE1), (0xFFFF, 0xCD)] { base with sp := 0xFFFF })
      (fun t => t.h == 0xAB && t.l == 0xCD && t.sp == 0x0001 && t.pc == 0x0101 && t.clk == 12 && t.fault.isNone),
    stepTo (cells [(0x0100, 0xF1), (0xCFFE, 0x34), (0xCFFF, 0x12)] { base with sp := 0xCFFE })
      (fun t => t.a == 0x12 && t.f == 0x34 && t.sp == 0xD000 && t.pc == 0x0101 && t.clk == 12 && t.fault.isNone)] : List Bool).all id = true := by
  decide +kernel

/-- Vector V5 of 95_test_vectors.md. -/
theorem test_vector_v5 :
    stepTo (cells [(0x0100, 0x66), (0xC010, 0xD0)] { base with h := 0xC0, l := 0x10 })
      (fun t => t.h == 0xD0 && t.l == 0x10 && t.pc == 0x0101 && t.clk == 8 && t.fault.isNone) = true := by
  decide +kernel

/-- Vector V6 of 95_test_vectors.md. -/
theorem test_vector_v6 :
    stepTo (cells [(0x0100, 0x6E), (0xC010, 0x55)] { base with h := 0xC0, l := 0x10 })
      (fun t => t.h == 0xC0 && t.l == 0x55 && t.pc == 0x0101 && t.clk == 8 && t.fault.isNone) = true := by
  decide +kernel

/-- Vector V7 of 95_test_vectors.md. -/
theorem test_vector_v7 :
    stepTo (cells [(0x0100, 0x74)] { base with h := 0xC1, l := 0x23 })
      (fun t => t.h == 0xC1 && t.l == 0x23 && t.memRead8 0xC123 == 0xC1 && t.pc == 0x0101 && t.clk == 8 && t.fault.isNone) = true := by
  decide +kernel

/-- Vector V8 of 95_test_vectors.md. -/
theorem test_vector_v8 :
    stepTo (cells [(0x0100, 0x75)] { base with h := 0xC1, l := 0x23 })
      (fun t => t.h == 0xC1 && t.l == 0x23 && t.memRead8 0xC123 == 0x23 && t.pc == 0x0101 && t.clk == 8 && t.fault.isNone) = true := by
  decide +kernel

/-- Vector V10 of 95_test_vectors.md. -/
theorem test_vector_v10 :
    stepTo (cells [(0xFFFF, 0x7F)] { base with a := 0x11, pc := 0xFFFF })
      (fun t => t.a == 0x11 && t.pc == 0x0000 && t.clk == 4 && t.fault.isNone) = true := by
  decide +kernel

/-- Vector V11 of 95_test_vectors.md. -/
theorem test_vector_v11 :
    stepTo (cells [(0x0100, 0x77)] { base with a := 0x76, h := 0x01 })
      (fun t => t.a == 0x76 && t.h == 0x01 && t.memRead8 0x0100 == 0x76 && t.pc == 0x0101 && t.clk == 8 && t.fault.isNone) = true := by
  decide +kernel

/-- Vector V12 of 95_test_vectors.md. -/
theorem test_vector_v12 :
    stepTo (cells [(0x0100, 0x5A)] { base with d := 0x42, cfg := { Config.hardware with tickBias := 1 } })
      (fun t => t.d == 0x42 && t.e == 0x42 && t.pc == 0x0101 && t.clk == 5 && t.fault.isNone) = true := by
  decide +kernel

/-- Vector V13 of 95_test_vectors.md. -/
theorem test_vector_v13 :
    stepTo (cells [(0x0100, 0x76)] base)
      (fun t => t.pc == 0x0100 && t.clk == 0 && t.fault == some (.unimplementedOpcode 0x76 0x0100)) = true := by
  decide +kernel

/-- Vector V21 of 95_test_vectors.md. -/
theorem test_vector_v21 :
    stepTo (cells [(0x0000, 0x7F), (0xFFFF, 0x0E)] { base with pc := 0xFFFF })
      (fun t => t.c == 0x7F && t.pc == 0x0001 && t.clk == 8 && t.fault.isNone) = true := by
  decide +kernel

/-- Vector V23 of 95_test_vectors.md. -/
theorem test_vector_v23 :
    stepTo (cells [(0x0100, 0x36), (0x0101, 0xAB)] { base with h := 0x01, l := 0x01 })
      (fun t => t.h == 0x01 && t.l == 0x01 && t.pc == 0x0102 && t.clk == 12 && t.fault.isNone) = true := by
  decide +kernel

/-- Vector V27 of 95_test_vectors.md. -/
theorem test_vector_v27 :
    stepTo (cells [(0x0100, 0x22)] { base with a := 0x66, h := 0xFF, l := 0xFF })
      (fun t => t.a == 0x66 && t.h == 0x00 && t.l == 0x00 && t.memRead8 0xFFFF == 0x66 && t.pc == 0x0101 && t.clk == 8 && t.fault.isNone) = true := by
  decide +kernel

/-- Vector V28 of 95_test_vectors.md. -/
theorem test_vector_v28 :
    stepTo (cells [(0x0100, 0x2A), (0xC0FF, 0x9C)] { base with h := 0xC0, l := 0xFF })
      (fun t => t.a == 0x9C && t.h == 0xC1 && t.l == 0x00 && t.pc == 0x0101 && t.clk == 8 && t.fault.isNone) = true := by
  decide +kernel

/-- Vector V29 of 95_test_vectors.md. -/
theorem test_vector_v29 :
    stepTo (cells [(0x0100, 0x32)] { base with a := 0x07 })
      (fun t => t.a == 0x07 && t.h == 0xFF && t.l == 0xFF && t.memRead8 0x0000 == 0x07 && t.pc == 0x0101 && t.clk == 8 && t.fault.isNone) = true := by
  decide +kernel

/-- Vector V30 of 95_test_vectors.md. -/
theorem test_vector_v30 :
    stepTo (cells [(0x0100, 0xE0), (0x0101, 0x80)] { base with a := 0x5A })
      (fun t => t.a == 0x5A && t.memRead8 0xFE80 == 0x5A && t.pc == 0x0102 && t.clk == 12 && t.fault.isNone) = true := by
  decide +kernel

/-- Vector V31 of 95_test_vectors.md. -/
theorem test_vector_v31 :
    stepTo (cells [(0x0100, 0xE0), (0x0101, 0x80)] { base with a := 0x5A, cfg := { Config.hardware with zpExt := .zext } })
      (fun t => t.a == 0x5A && t.memRead8 0xFF80 == 0x5A && t.pc == 0x0102 && t.clk == 12 && t.fault.isNone) = true := by
  decide +kernel

/-- Vector V33 of 95_test_vectors.md. -/
theorem test_vector_v33 :
    stepTo (cells [(0x0100, 0xF0), (0x0101, 0xFF), (0xFEFF, 0x21), (0xFFFF, 0x43)] base)
      (fun t => t.a == 0x21 && t.pc == 0x0102 && t.clk == 12 && t.fault.isNone) = true := by
  decide +kernel

/-- Vector V35 of 95_test_vectors.md. -/
theorem test_vector_v35 :
    stepTo (cells [(0x0100, 0xF2), (0xFEFF, 0x21), (0xFFFF, 0x43)] { base with c := 0xFF, cfg := { Config.hardware with zpExt := .zext } })
      (fun t => t.a == 0x43 && t.c == 0xFF && t.pc == 0x0101 && t.clk == 8 && t.fault.isNone) = true := by
  decide +kernel

/-- Vector V37 of 95_test_vectors.md. -/
theorem test_vector_v37 :
    stepTo (cells [(0x0000, 0xC0), (0xFFFE, 0xEA), (0xFFFF, 0x50)] { base with a := 0xA5, pc := 0xFFFE })
      (fun t => t.a == 0xA5 && t.memRead8 0xC050 == 0xA5 && t.pc == 0x0001 && t.clk == 16 && t.fault.isNone) = true := by
  decide +kernel

/-- Vector V38 of 95_test_vectors.md. -/
theorem test_vector_v38 :
    stepTo (cells [(0x0100, 0xFA), (0x0102, 0x01)] base)
      (fun t => t.a == 0xFA && t.pc == 0x0103 && t.clk == 16 && t.fault.isNone) = true := by
  decide +kernel

/-- Vector V41 of 95_test_vectors.md. -/
theorem test_vector_v41 :
    stepTo (cells [(0x0000, 0x12), (0xFFFE, 0x01), (0xFFFF, 0x34)] { base with pc := 0xFFFE })
      (fun t => t.b == 0x12 && t.c == 0x34 && t.pc == 0x0001 && t.clk == 12 && t.fault.isNone) = true := by
  decide +kernel

/-- Vector V45 of 95_test_vectors.md. -/
theorem test_vector_v45 :
    stepTo (cells [(0x0100, 0x08), (0x0101, 0xFF), (0x0102, 0xFF)] { base with sp := 0x1234 })
      (fun t => t.sp == 0x1234 && t.memRead8 0x0000 == 0x12 && t.memRead8 0xFFFF == 0x34 && t.pc == 0x0103 && t.clk == 20 && t.fault.isNone) = true := by
  decide +kernel

/-- Vector V46 of 95_test_vectors.md. -/
theorem test_vector_v46 :
    stepTo (cells [(0x0100, 0x08), (0x0101, 0x01), (0x0102, 0x01)] { base with sp := 0xABCD })
      (fun t => t.sp == 0xABCD && t.memRead8 0x0101 == 0xCD && t.memRead8 0x0102 == 0xAB && t.pc == 0x0103 && t.clk == 20 && t.fault.isNone) = true := by
  decide +kernel

/-- Vector V47 of 95_test_vectors.md. -/
theorem test_vector_v47 :
    stepTo (cells [(0x0100, 0xF8), (0x0101, 0xFE)] { base with f := 0xFF, sp := 0xFFFE })
      (fun t => t.f == 0xFF && t.h == 0xFF && t.l == 0xFC && t.sp == 0xFFFE && t.pc == 0x0102 && t.clk == 12 && t.fault.isNone) = true := by
  decide +kernel

/-- Vector V49 of 95_test_vectors.md. -/
theorem test_vector_v49 :
    stepTo (cells [(0x0100, 0xF8), (0x0101, 0x80)] base)
      (fun t => t.h == 0xFF && t.l == 0x80 && t.pc == 0x0102 && t.clk == 12 && t.fault.isNone) = true := by
  decide +kernel

/-- Vector V52 of 95_test_vectors.md. -/
theorem test_vector_v52 :
    stepTo (cells [(0x0100, 0xF5)] { base with a := 0x12, f := 0x3F, sp := 0xD000 })
      (fun t => t.a == 0x12 && t.f == 0x3F && t.sp == 0xCFFE && t.memRead8 0xCFFE == 0x3F && t.memRead8 0xCFFF == 0x12 && t.pc == 0x0101 && t.clk == 16 && t.fault.isNone) = true := by
  decide +kernel

/-- Vector V53 of 95_test_vectors.md. -/
theorem test_vector_v53 :
    stepTo (cells [(0x0100, 0xD5)] { base with d := 0xBE, e := 0xEF, sp := 0x0001 })
      (fun t => t.d == 0xBE && t.e == 0xEF && t.sp == 0xFFFF && t.memRead8 0x0000 == 0xBE && t.memRead8 0xFFFF == 0xEF && t.pc == 0x0101 && t.clk == 16 && t.fault.isNone) = true := by
  decide +kernel

/-- Vector V54 of 95_test_vectors.md. -/
theorem test_vector_v54 :
    stepTo (cells [(0x0000, 0xAB), (0x0100, 0xE1), (0xFFFF, 0xCD)] { base with sp := 0xFFFF })
      (fun t => t.h == 0xAB && t.l == 0xCD && t.sp == 0x0001 && t.pc == 0x0101 && t.clk == 12 && t.fault.isNone) = true := by
  decide +kernel

/-- Vector V55 of 95_test_vectors.md. -/
theorem test_vector_v55 :
    stepTo (cells [(0x0100, 0xE5)] { base with h := 0x12, l := 0x34 })
      (fun t => t.h == 0x12 && t.l == 0x34 && t.sp == 0xFFFE && t.memRead8 0xFFFE == 0x34 && t.memRead8 0xFFFF == 0x12 && t.pc == 0x0101 && t.clk == 16 && t.fault.isNone) = true := by
  decide +kernel

/-- Vector V56 of 95_test_vectors.md. -/
theorem test_vector_v56 :
    stepTo (cells [(0x0100, 0xF1), (0xCFFE, 0xFF), (0xCFFF, 0x12)] { base with sp := 0xCFFE })
      (fun t => t.a == 0x12 && t.f == 0xFF && t.sp == 0xD000 && t.pc == 0x0101 && t.clk == 12 && t.fault.isNone) = true := by
  decide +kernel

/-- Vector V57 of 95_test_vectors.md. -/
theorem test_vector_v57 :
    stepTo (cells [(0x0100, 0xC1), (0xC001, 0x78), (0xC002, 0x56)] { base with sp := 0xC001 })
      (fun t => t.b == 0x56 && t.c == 0x78 && t.sp == 0xC003 && t.pc == 0x0101 && t.clk == 12 && t.fault.isNone) = true := by
  decide +kernel

/-- Vector V60 of 95_test_vectors.md. -/
theorem test_vector_v60 :
    stepTo (cells [] base)
      (fun t => t.pc == 0x0100 && t.clk == 0 && t.fault == some (.unimplementedOpcode 0x00 0x0100)) = true := by
  decide +kernel

/-- Vector V61 of 95_test_vectors.md. -/
theorem test_vector_v61 :
    stepTo (cells [(0x0100, 0xCB), (0x0101, 0x40)] base)
      (fun t => t.pc == 0x0100 && t.clk == 0 && t.fault == some (.unimplementedOpcode 0xCB 0x0100)) = true := by
  decide +kernel

/-- Vector V62 of 95_test_vectors.md. -/
theorem test_vector_v62 :
    stepTo (cells [(0x0100, 0x80)] { base with a := 0x01, b := 0x02, sp := 0xD000 })
      (fun t => t.a == 0x01 && t.b == 0x02 && t.sp == 0xD000 && t.pc == 0x0100 && t.clk == 0 && t.fault == some (.unimplementedOpcode 0x80 0x0100)) = true := by
  decide +kernel

/-- Vector V66 of 95_test_vectors.md. -/
theorem test_vector_v66 :
    stepTo (cells [(0x0100, 0xF3)] { base with clk := 60 })
      (fun t => t.pc == 0x0100 && t.clk == 60 && t.fault == some (.unimplementedOpcode 0xF3 0x0100)) = true := by
  decide +kernel

/-- Vector V67 of 95_test_vectors.md. -/
theorem test_vector_v67 :
    stepTo (cells [(0x0100, 0x2E), (0x0101, 0x99)] { base with h := 0xC0, cfg := { Config.hardware with admitTier2 := false } })
      (fun t => t.h == 0xC0 && t.pc == 0x0100 && t.clk == 0 && t.fault == some (.unimplementedOpcode 0x2E 0x0100)) = true := by
  decide +kernel

/-- Vector V68 of 95_test_vectors.md. -/
theorem test_vector_v68 :
    stepTo (cells [(0x0100, 0x26), (0x0101, 0x99)] { base with h := 0xC0, cfg := { Config.hardware with admitTier2 := false } })
      (fun t => t.h == 0x99 && t.pc == 0x0102 && t.clk == 8 && t.fault.isNone) = true := by
  decide +kernel

/-! Witnesses: concrete states and operands that meet the hypotheses of each obligation. -/

/-- A policy that refuses every access to 0xA000 to 0xBFFF and writes to 0x8000 to 0x9FFF. -/
def guarded : Config :=
  { Config.hardware with memmap := .guarded [⟨0xA000, 0xBFFF, true, true, .cell⟩, ⟨0x8000, 0x9FFF, false, true, .cell⟩] }

theorem witness_ResetMeetsInvariant : ({ Init.named with mem := [(0x0100, 0x40), (0xFFFF, 0x01)] } : Init).mem.wf = true := by
  decide +kernel

theorem witness_ByteWriteChangesOneCell : (cells [(0x0100, 0x40)] base).mem.wf = true ∧
    (0xFFFF : Word) ≠ 0x0000 ∧ base.cfg.memmap = .flat := by
  decide +kernel

theorem witness_WordsAreLittleEndianAndWrap :
    (cells [(0xFFFF, 0x40)] base).mem.wf = true ∧ base.cfg.memmap = .flat ∧ (0x0001 : Word) ≠ 0xFFFF ∧ (0x0001 : Word) ≠ 0xFFFF + 1 := by
  decide +kernel

theorem witness_CanonicalMemoriesAreExtensional :
    Memory.wf [(0x0000, 0x01), (0xFFFF, 0xFF)] = true ∧
    ∀ a : Word, Memory.read [(0x0000, 0x01), (0xFFFF, 0xFF)] a.toNat = Memory.read [(0x0000, 0x01), (0xFFFF, 0xFF)] a.toNat :=
  ⟨by decide +kernel, fun _ => rfl⟩

theorem witness_DecodeOfEncodeIsTheInstruction :
    (Instr.ldSpD16 0xFFFF).wellFormed true = true ∧ (Instr.unimplemented 0x31).wellFormed false = true ∧
    (Instr.unimplemented 0xFF).wellFormed true = true := by
  decide +kernel

theorem witness_DecodedBytesAreTheEncoding : (match decode true [0x01, 0x34, 0x12, 0x99] with
    | .ok x    => x == (Instr.ldBcD16 0x1234, [0x99])
    | .error _ => false) = true := by
  decide +kernel

theorem witness_LengthAndCostFollowFromTheOpcode :
    decodable true 0x08 = true ∧ decodable false 0xFA = true ∧ base.cfg.memmap = .flat := by
  decide +kernel

theorem witness_LoadFromHlCell : ∃ s : State, s.CanRead [s.pair .hl] ∧ s.h = 0x9F ∧ s.l = 0xFF :=
  ⟨{ base with h := 0x9F, l := 0xFF, cfg := guarded }, by decide +kernel⟩

theorem witness_StoreToHlCell : ∃ s : State, s.CanWrite [s.pair .hl] ∧ s.h = 0xC0 ∧ s.l = 0x00 :=
  ⟨{ base with h := 0xC0, cfg := guarded }, by decide +kernel⟩

theorem witness_StoreImmediateByteToHlCell : ∃ s : State,
    s.CanWrite [s.pair .hl] :=
  ⟨{ base with h := 0xC1, l := 0x23, cfg := guarded }, by decide +kernel⟩

theorem witness_IndirectThroughBcAndDe : ∃ s : State,
    s.CanWrite [s.pair .bc] ∧ s.CanWrite [s.pair .de] ∧ s.CanRead [s.pair .bc] ∧ s.CanRead [s.pair .de] :=
  ⟨{ base with b := 0xC0, c := 0x10, d := 0x7F, e := 0xFF, cfg := guarded }, by decide +kernel⟩

theorem witness_AutoIncrementAndDecrementLoads : ∃ s : State,
    s.CanWrite [s.pair .hl] ∧ s.CanRead [s.pair .hl] :=
  ⟨{ base with h := 0xFF, l := 0xFF, cfg := guarded }, by decide +kernel⟩

theorem witness_ZeroPageLoadsAndStores : ∃ s : State,
    s.CanWrite [zeroPage s.cfg.zpExt 0x80] ∧ s.CanRead [zeroPage s.cfg.zpExt 0x80] ∧
    s.CanWrite [zeroPage s.cfg.zpExt s.c] ∧ s.CanRead [zeroPage s.cfg.zpExt s.c] :=
  ⟨{ base with c := 0xFF, cfg := guarded }, by decide +kernel⟩

theorem witness_AbsoluteLoadAndStore : ∃ s : State,
    s.CanWrite [wordOf 0xC0 0x50] ∧ s.CanRead [wordOf 0x9F 0xFF] :=
  ⟨{ base with cfg := guarded }, by decide +kernel⟩

theorem witness_StoreStackPointer : ∃ s : State,
    s.CanWrite [wordOf 0xFF 0xFF, wordOf 0xFF 0xFF + 1] :=
  ⟨{ base with sp := 0x1234, cfg := guarded }, by decide +kernel⟩

theorem witness_PushStoresThePair : ∃ s : State,
    s.CanWrite [s.sp - 2, s.sp - 1] :=
  ⟨{ base with sp := 0x0001, cfg := guarded }, by decide +kernel⟩

theorem witness_PopLoadsThePair : ∃ s : State,
    s.CanRead [s.sp, s.sp + 1] :=
  ⟨{ base with sp := 0x9FFE, cfg := guarded }, by decide +kernel⟩

/-- The state of vector V50. -/
def pushPop : State := cells [(0x0100, 0xC5), (0x0101, 0xD1)] { base with b := 0x12, c := 0x34, sp := 0xFFFE }

theorem witness_PushThenPopTransfersTheValue : pushPop.Running ∧ pushPop.mem.wf = true ∧ pushPop.cfg.memmap = .flat ∧
    pushPop.memRead8 pushPop.pc = pushOpcode .bc ∧ pushPop.memRead8 (pushPop.pc + 1) = popOpcode .de ∧
    pushPop.pc + 1 ≠ pushPop.sp - 2 ∧ pushPop.pc + 1 ≠ pushPop.sp - 1 := by
  decide +kernel

/-! Frames: each form completes on a concrete state, with the latch empty. -/

theorem witness_ByteRegisterLoadFrame : ∀ i ∈ ([.regMove .b .a, .loadAtHl .h, .loadImm8 .l 0x99, .ldAAtBc, .ldAAtDe, .ldhAAtA8 0x80, .ldAAtC,
    .ldAAtA16 0xFFFF] : List Instr),
    ∃ t, exec i base = .next t ∧ t.fault.isNone = true :=
  fun _ h => check_next (List.all_eq_true.mp (by decide +kernel : List.all _ (fun i => check (exec i base) (fun t => t.fault.isNone)) = true) _ h)

theorem witness_StoreFrame : base.mem.wf = true ∧ ∀ i ∈ ([.storeAtHl .h, .ldAtHlD8 0xAB, .ldAtBcA, .ldAtDeA, .ldhAtA8A 0xFF, .ldAtCA,
    .ldAtA16A 0x0000, .ldAtA16Sp 0xFFFF, .push .af] : List Instr),
    ∃ t, exec i base = .next t ∧ t.fault.isNone = true :=
  ⟨rfl, fun _ h => check_next (List.all_eq_true.mp (by decide +kernel : List.all _ (fun i => check (exec i base) (fun t => t.fault.isNone)) = true) _ h)⟩

theorem witness_AutoIncrementFrame : base.mem.wf = true ∧ ∀ i ∈ ([.ldAtHlIncA, .ldAtHlDecA, .ldAAtHlInc, .ldAAtHlDec] : List Instr),
    ∃ t, exec i base = .next t ∧ t.fault.isNone = true :=
  ⟨rfl, fun _ h => check_next (List.all_eq_true.mp (by decide +kernel : List.all _ (fun i => check (exec i base) (fun t => t.fault.isNone)) = true) _ h)⟩

theorem witness_WordRegisterLoadFrame : ∀ i ∈ ([.ldBcD16 0x1234, .ldDeD16 0x1234, .ldHlD16 0x1234, .ldSpD16 0xCFFF, .ldHlSpR8 0xFE,
    .ldSpHl, .pop .bc, .pop .de, .pop .hl, .pop .af] : List Instr),
    ∃ t, exec i base = .next t ∧ t.fault.isNone = true :=
  fun _ h => check_next (List.all_eq_true.mp (by decide +kernel : List.all _ (fun i => check (exec i base) (fun t => t.fault.isNone)) = true) _ h)

theorem witness_MemoryChangesOnlyWhereStored : base.mem.wf = true ∧
    (∃ t, exec (.push .bc) base = .next t ∧ t.fault.isNone = true) ∧
    byteStoredTo (.push .bc) base ≠ some 0x0001 ∧ wordStoredTo (.push .bc) base ≠ some 0x0001 ∧
    wordStoredTo (.push .bc) base ≠ some (0x0001 - 1) :=
  ⟨rfl, check_next (by decide +kernel), by decide +kernel, by decide +kernel, by decide +kernel⟩

theorem witness_StackPointerWriters :
    (∃ t, exec (.push .bc) base = .next t ∧ (t.sp != base.sp) = true) ∧
    (∃ t, exec (.pop .bc) base = .next t ∧ (t.sp != base.sp) = true) ∧
    (∃ t, exec .ldSpHl { base with h := 0xFF } = .next t ∧ (t.sp != base.sp) = true) ∧
    ∃ t, exec (.ldSpD16 0xCFFF) base = .next t ∧ (t.sp != base.sp) = true :=
  ⟨check_next (by decide +kernel), check_next (by decide +kernel), check_next (by decide +kernel), check_next (by decide +kernel)⟩

/-! Steps. -/

theorem witness_UnimplementedByteLatches : ∃ s : State,
    s.Running ∧ s.CanRead [s.pc] ∧ s.memRead8 s.pc = 0xCB ∧ decodable s.cfg.admitTier2 0xCB = false :=
  ⟨cells [(0x0100, 0xCB)] base, by decide +kernel⟩

theorem witness_StepRunsTheDecodedInstruction_latched :
    ({ base with fault := some (.unimplementedOpcode 0x76 0x0100) } : State).fault ≠ none := by
  decide +kernel

theorem witness_StepRunsTheDecodedInstruction_unimplemented : ∃ s : State,
    s.Running ∧ s.CanRead [s.pc] ∧ decodable s.cfg.admitTier2 (s.memRead8 s.pc) = false :=
  ⟨cells [(0x0100, 0x76)] base, by decide +kernel⟩

theorem witness_StepRunsTheDecodedInstruction_decodable : ∃ s : State,
    s.Running ∧ s.CanRead [s.pc] ∧ s.CanRead (immediateCells s) ∧ decodable s.cfg.admitTier2 (s.memRead8 s.pc) = true ∧
    (match decode s.cfg.admitTier2 [s.memRead8 s.pc, s.memRead8 (s.pc + 1), s.memRead8 (s.pc + 2)] with
    | .ok x    => x == (Instr.ldBcD16 0x1234, [])
    | .error _ => false) = true :=
  ⟨cells [(0xFFFE, 0x01), (0xFFFF, 0x34), (0x0000, 0x12)] { base with pc := 0xFFFE }, by decide +kernel⟩

theorem witness_RunningStepHasANextState : base.Running := rfl

theorem witness_LatchIsStickyAndStopsTheCore : ∃ s : State,
    s.fault ≠ none ∧ Host.Core.run core 0 s = .next s ∧ ∃ t, step base = .next t ∧ t.fault.isSome = true :=
  ⟨{ base with fault := some (.invalidAddress 0xA000 .read) }, ⟨by decide +kernel, rfl, check_next (by decide +kernel)⟩⟩

theorem witness_FailingStepChangesOnlyTheLatch : ∃ t, step base = .next t ∧
    (t.fault == some (.unimplementedOpcode 0x00 0x0100)) = true :=
  check_next (by decide +kernel)

/-- The opcode fetch is refused (R315 case 1), at the last address of the window. -/
theorem witness_FirstFailingAccess_opcode : ∃ s : State,
    s.Running ∧ ¬ s.CanRead [s.pc] :=
  ⟨{ base with pc := 0xBFFF, cfg := guarded }, by decide +kernel⟩

/-- The opcode has no handler (case 2), one address above the window. -/
theorem witness_FirstFailingAccess_unimplemented : ∃ s : State,
    s.Running ∧ s.CanRead [s.pc] ∧ decodable s.cfg.admitTier2 (s.memRead8 s.pc) = false :=
  ⟨{ base with pc := 0xC000, cfg := guarded }, by decide +kernel⟩

/-- An immediate fetch is refused (case 3): the second of two, at the window's first address. -/
theorem witness_FirstFailingAccess_immediate : ∃ s : State,
    s.Running ∧ s.CanRead [s.pc] ∧ decodable s.cfg.admitTier2 (s.memRead8 s.pc) = true ∧
    (immediateCells s).find? (fun x => !admitsRead s.cfg.memmap x) = some 0xA000 :=
  ⟨cells [(0x9FFE, 0x01)] { base with pc := 0x9FFE, cfg := guarded }, by decide +kernel⟩

/-- A data read is refused (case 4): the high byte of POP BC. -/
theorem witness_FirstFailingAccess_read : ∃ s : State,
    s.Running ∧ s.CanRead [s.pc] ∧ decodable s.cfg.admitTier2 (s.memRead8 s.pc) = true ∧ s.CanRead (immediateCells s) ∧
    (accessCells (byteLoadedFrom .popBc s) (wordLoadedFrom .popBc s)).find? (fun x => !admitsRead s.cfg.memmap x) = some 0xA000 :=
  ⟨cells [(0x0100, 0xC1)] { base with sp := 0x9FFF, cfg := guarded }, by decide +kernel⟩

/-- A data write is refused (case 5): the high byte of PUSH BC, at the window's first address. -/
theorem witness_FirstFailingAccess_write : ∃ s : State,
    s.Running ∧ s.CanRead [s.pc] ∧ decodable s.cfg.admitTier2 (s.memRead8 s.pc) = true ∧ s.CanRead (immediateCells s) ∧
    s.CanRead (accessCells (byteLoadedFrom .pushBc s) (wordLoadedFrom .pushBc s)) ∧
    (accessCells (byteStoredTo .pushBc s) (wordStoredTo .pushBc s)).find? (fun x => !admitsWrite s.cfg.memmap x) = some 0x8000 :=
  ⟨cells [(0x0100, 0xC5)] { base with sp := 0x8001, cfg := guarded }, by decide +kernel⟩

/-- The two policies' faults, one step each: what case 4 and case 5 latch. -/
theorem test_refused_accesses_latch :
    (stepTo (cells [(0x0100, 0xC1)] { base with sp := 0x9FFF, cfg := guarded })
      (fun t => t == { cells [(0x0100, 0xC1)] { base with sp := 0x9FFF, cfg := guarded } with
        fault := some (.invalidAddress 0xA000 .read) }) &&
    stepTo (cells [(0x0100, 0xC5)] { base with sp := 0x8001, cfg := guarded })
      (fun t => t == { cells [(0x0100, 0xC5)] { base with sp := 0x8001, cfg := guarded } with
        fault := some (.invalidAddress 0x8000 .write) })) = true := by
  decide +kernel

theorem witness_FlatMemoryFaultsOnlyOnUnimplementedBytes :
    base.cfg.memmap = .flat ∧ (∃ t, step base = .next t ∧ t.fault.isSome = true) ∧
    ∃ t, step (cells [(0x0100, 0x40)] base) = .next t ∧ t.fault.isNone = true :=
  ⟨rfl, check_next (by decide +kernel), check_next (by decide +kernel)⟩

/-- The hypotheses of ProgramCounterAdvancesByTheLength, ClockAdvancesByTheCost, ClockIsReadByNoInstruction, StepKeepsTheParameters and,
with the invariant, StepKeepsTheInvariant, once on a step that completes and once on one that latches. -/
theorem witness_step_statements : base.Inv ∧
    (∃ t, step (cells [(0x0100, 0x40)] base) = .next t ∧ t.fault.isNone = true) ∧
    ∃ t, step base = .next t ∧ t.fault.isSome = true :=
  ⟨by decide +kernel, check_next (by decide +kernel), check_next (by decide +kernel)⟩

theorem witness_FIsReadByPushAfAndWrittenByPopAfOnly : Instr.pushAf ≠ .popAf ∧ Instr.ldAAtHl ≠ .pushAf ∧ Instr.ldAAtHl ≠ .popAf ∧
    (∃ t, exec .pushAf base = .next t ∧ t.fault.isNone = true) ∧ ∃ t, exec .ldAAtHl base = .next t ∧ t.fault.isNone = true :=
  ⟨by decide +kernel, by decide +kernel, by decide +kernel, check_next (by decide +kernel), check_next (by decide +kernel)⟩

/-- POP AF that completes, whose two bytes end just below the window, and POP AF whose high byte is refused. -/
theorem witness_FIsRead_popAf :
    (∃ t, exec .popAf { base with sp := 0x9FFE, cfg := guarded } = .next t ∧ t.fault.isNone = true) ∧
    ({ base with sp := 0x9FFE, cfg := guarded } : State).CanRead [0x9FFE, 0x9FFE + 1] ∧
    (∃ t, exec .popAf { base with sp := 0x9FFF, cfg := guarded } = .next t ∧ t.fault.isSome = true) ∧
    ¬ ({ base with sp := 0x9FFF, cfg := guarded } : State).CanRead [0x9FFF, 0x9FFF + 1] :=
  ⟨check_next (by decide +kernel), by decide +kernel, check_next (by decide +kernel), by decide +kernel⟩

/-- The state of vector V58: PUSH HL stores over the next instruction. -/
def pushOverNext : State := cells [(0x0100, 0xE5)] { base with h := 0x76, l := 0x40, sp := 0x0103, b := 0x33 }

theorem witness_NextDecodeSeesTheStoredOpcode : pushOverNext.Running ∧ pushOverNext.mem.wf = true ∧
    pushOverNext.cfg.memmap = .flat ∧ decodable pushOverNext.cfg.admitTier2 (pushOverNext.memRead8 pushOverNext.pc) = true := by
  decide +kernel

/-- Vector V58, its first step: 0x40 stands where a 0x00 stood, and the next decode is LD B,B. -/
theorem test_vector_v58_first_step :
    stepTo pushOverNext (fun t => t.memRead8 0x0101 == 0x40 && t.memRead8 0x0102 == 0x76 &&
      (match decodeNext t with
        | .ok i    => i == .ldBB
        | .error _ => false)) = true := by
  decide +kernel

/-! The memory policy: a window that reads as a fixed byte, one that mirrors 0xC000, one whose reads are free. -/

def wCell : Window := ⟨0x0000, 0x00FF, false, false, .cell⟩

def wMirror : Window := ⟨0xE000, 0xFDFF, false, false, .mirror 0xC000⟩

def wFixed : Window := ⟨0xFF00, 0xFFFF, false, false, .fixed 0xFF⟩

def wFree : Window := ⟨0xFE00, 0xFEFF, false, false, .free 0⟩

def reading : Config :=
  { Config.hardware with memmap := .guarded [wCell, wMirror, wFixed, wFree] }

theorem witness_FlatMemoryIsPlain : base.cfg.memmap = .flat ∧ base.mem.wf = true := by
  decide +kernel

/-- Each of the four windows first to cover an address at a boundary of its range, and an address that none covers. -/
theorem witness_PolicyReadsReturnWhatTheFirstWindowSays :
    reading.memmap = .guarded ([] ++ wCell :: [wMirror, wFixed, wFree]) ∧ windowCovers wCell 0x00FF = true ∧
    reading.memmap = .guarded ([wCell] ++ wMirror :: [wFixed, wFree]) ∧ windowCovers wMirror 0xE000 = true ∧
    reading.memmap = .guarded ([wCell, wMirror] ++ wFixed :: [wFree]) ∧ windowCovers wFixed 0xFFFF = true ∧
    reading.memmap = .guarded ([wCell, wMirror, wFixed] ++ wFree :: []) ∧ windowCovers wFree 0xFE00 = true ∧
    [wCell].all (fun x => !windowCovers x 0xE000) = true ∧ [wCell, wMirror].all (fun x => !windowCovers x 0xFFFF) = true ∧
    [wCell, wMirror, wFixed].all (fun x => !windowCovers x 0xFE00) = true ∧
    [wCell, wMirror, wFixed, wFree].all (fun x => !windowCovers x 0xDFFF) = true := by
  decide +kernel

/-- A load through a window that reads as a fixed byte, and one through a window that mirrors 0xC000 (log 5). -/
theorem test_policy_reads :
    (stepTo (cells [(0x0100, 0x7E), (0xFF80, 0x12)] { base with h := 0xFF, l := 0x80, cfg := reading }) (fun t => t.a == 0xFF) &&
      stepTo (cells [(0x0100, 0x7E), (0xC123, 0x5A)] { base with h := 0xE1, l := 0x23, cfg := reading }) (fun t => t.a == 0x5A))
      = true := by
  decide +kernel

/-- A store there lands in the cell, whatever a read returns (R53, log 5). -/
theorem test_policy_store :
    stepTo (cells [(0x0100, 0x77)] { base with a := 0x5A, h := 0xFF, l := 0x80, cfg := reading })
      (fun t => t.cell 0xFF80 == 0x5A && t.memRead8 0xFF80 == 0xFF) = true := by
  decide +kernel

theorem witness_PlacedWordRunsNext : base.Running ∧ base.mem.wf = true ∧ base.cfg = Config.hardware ∧
    decodeTableWord 24 0x123401 = some (.ldBcD16 0x1234) := by
  decide +kernel

theorem witness_FaultedRunIsACompletedRunPlusTheLatch : base.Running ∧ ∃ t : State, Host.Core.run core 1 base = .next t ∧
    (t.fault == some (.unimplementedOpcode 0x00 0x0100)) = true :=
  ⟨rfl, check_next (o := Host.Core.run core 1 base) (by decide +kernel)⟩

theorem witness_FlatRunGoesOnOrMeetsAnUnimplementedByte : pushPop.Running ∧ pushPop.cfg.memmap = .flat := by
  decide +kernel

end Sys2Proof.Tests
end

section
/-! One step of a running core: every meaning answers a next state, and so does the step (00_scope.md R19). -/

namespace Sys2Proof.Machine

/-- The protocol never stops: the completed instruction, or the fault entry as a next state (R313, R314). -/
theorem execute_exists_next (n : Instruction) (s : State) : ∃ t, execute n s = .next t := by
  rcases execute_cases n s with ⟨r, _, hx⟩ | ⟨_, hx⟩
  · exact ⟨s.raise r, hx⟩
  · exact ⟨complete n s, hx⟩

/-- No instruction's meaning is a refusal or a stop, on any state. -/
theorem exec_exists_next (i : Instr) (s : State) : ∃ t, exec i s = .next t := by
  rcases exec_cases i s with ⟨n, _, hx, _⟩ | ⟨op, _, hx⟩
  · rw [hx]
    exact execute_exists_next n s
  · exact ⟨s.raise (.unimplementedOpcode op s.pc), hx⟩

/-- Settles O40: a running core's fetch is refused, which is latched in a next state, or it decodes an instruction, whose meaning
answers one. -/
theorem runningStepHasANextState : Obligations.RunningStepHasANextState := by
  intro s hrun
  rcases decodeNext_cases s with ⟨a, _, _, hd⟩ | ⟨_, hd⟩
  · exact ⟨s.raise (.invalidAddress a .fetch), step_of_error hrun hd⟩
  · rw [step_of_ok hrun hd]
    exact exec_exists_next _ s

end Sys2Proof.Machine
end

section
/-! The state at reset, the pairs over their byte registers, and the latch (10_state.md R24, R37, R39). -/

namespace Sys2Proof.Machine

/-- A step that answers a state found the latch empty (R37, R131). -/
theorem fault_eq_none_of_step {s t : State} (h : step s = .next t) : s.fault = none := (step_cases h).1

/-- A run from a latched state that ends in a state is the run of no steps: its first step would need an empty latch (R37). -/
theorem run_from_latched {k : Nat} {s t : State} (hs : s.fault ≠ none) (h : Host.Core.run core k s = .next t) :
    k = 0 ∧ t = s := by
  cases k with
  | zero => cases h; exact ⟨rfl, rfl⟩
  | succ k =>
    obtain ⟨u, hstep, _⟩ := run_succ_cases h
    exact absurd (fault_eq_none_of_step hstep) hs

/-- Settles O41: the latch is empty by the definition of reset; a step that answers a state found it empty (`fault_eq_none_of_step`); and
so a run from a latched state has no first step (`run_from_latched`). -/
theorem latchIsStickyAndStopsTheCore : Obligations.LatchIsStickyAndStopsTheCore :=
  ⟨fun _ _ => rfl, fun _ _ hstep => fault_eq_none_of_step hstep, fun _ _ _ hs hrun => run_from_latched hs hrun⟩

/-- Settles O1: each field of the reset state is, by definition, the value that `INIT` or R39 gives it. -/
theorem resetTakesInitAndClearsClockAndLatch : Obligations.ResetTakesInitAndClearsClockAndLatch := by
  intro cfg init
  exact ⟨rfl, rfl, rfl, rfl, rfl, rfl, rfl, rfl, rfl, rfl, fun _ => rfl, rfl, rfl⟩

/-- Settles O3: reading and writing a pair are, by definition, the reads and writes of its two halves; that a read returns the word
written is `State.pair_setPair`. -/
theorem pairsAreTheirByteRegisters : Obligations.PairsAreTheirByteRegisters := by
  refine ⟨fun s => ?readsHalves, fun s w => ?writesHalves, fun s p w => State.pair_setPair p w s, fun s v => ?seesByteWrites⟩
  case readsHalves => exact ⟨rfl, rfl, rfl, rfl⟩
  case writesHalves => exact ⟨⟨rfl, rfl, rfl⟩, ⟨rfl, rfl, rfl⟩, ⟨rfl, rfl, rfl⟩, ⟨rfl, rfl, rfl⟩⟩
  case seesByteWrites => exact ⟨rfl, rfl, rfl, rfl, rfl, rfl, rfl⟩

end Sys2Proof.Machine
end

section
/-! Byte and word accesses: which cell a write sets, what it leaves, and what a read returns (20_memory.md R51 to R55). -/

namespace Sys2Proof.Machine

/-- A byte write puts the byte in its cell (R53). -/
theorem State.cell_memWrite8_same {s : State} (hwf : s.mem.wf = true) (a : Word) (v : Byte) :
    (s.memWrite8 a v).cell a = v := by
  rw [State.cell_memWrite8 hwf, if_pos rfl]

/-- A byte write leaves every other cell (R53). -/
theorem State.cell_memWrite8_of_ne {s : State} (hwf : s.mem.wf = true) {a b : Word} (hb : b ≠ a) (v : Byte) :
    (s.memWrite8 a v).cell b = s.cell b := by
  rw [State.cell_memWrite8 hwf, if_neg hb]

/-- The two cells of a word are two cells, at the wrap too (R54). -/
theorem ne_add_one (a : Word) : a ≠ a + 1 := by bv_omega

/-- A word write puts the low byte at its address: the high byte's cell is another one (R55). -/
theorem State.cell_memWrite16_low {s : State} (hwf : s.mem.wf = true) (a w : Word) :
    (s.memWrite16 a w).cell a = lo8 w := by
  rw [State.cell_memWrite16 hwf, if_neg (ne_add_one a), if_pos rfl]

/-- A word write puts the high byte at the next address (R55). -/
theorem State.cell_memWrite16_high {s : State} (hwf : s.mem.wf = true) (a w : Word) :
    (s.memWrite16 a w).cell (a + 1) = hi8 w := by
  rw [State.cell_memWrite16 hwf, if_pos rfl]

/-- A word write leaves every cell but its two (R55). -/
theorem State.cell_memWrite16_of_ne {s : State} (hwf : s.mem.wf = true) {a b : Word} (hlow : b ≠ a) (hhigh : b ≠ a + 1)
    (w : Word) : (s.memWrite16 a w).cell b = s.cell b := by
  rw [State.cell_memWrite16 hwf, if_neg hhigh, if_neg hlow]

/-- Under FLAT a word read is the two cells, low byte first (R51, R54). -/
theorem State.memRead16_of_flat {s : State} (hflat : s.cfg.memmap = .flat) (a : Word) :
    s.memRead16 a = wordOf (s.cell (a + 1)) (s.cell a) := by
  rw [State.memRead16, State.memRead8_of_flat hflat, State.memRead8_of_flat hflat]

/-- Under FLAT a word read gives back the word written at its address (R54, R55). -/
theorem State.memRead16_memWrite16 {s : State} (hflat : s.cfg.memmap = .flat) (hwf : s.mem.wf = true) (a w : Word) :
    (s.memWrite16 a w).memRead16 a = w := by
  have hflat' : (s.memWrite16 a w).cfg.memmap = .flat := hflat
  rw [State.memRead16_of_flat hflat', State.cell_memWrite16_high hwf, State.cell_memWrite16_low hwf, wordOf_hi8_lo8]

/-- Settles O4: the write rule `State.cell_memWrite8` at the written cell and away from it; the memory is the one field a byte write
sets, by definition. -/
theorem byteWriteChangesOneCell : Obligations.ByteWriteChangesOneCell := by
  refine ⟨fun s a v hwf => ⟨?written, ?others, ?frame⟩, fun s a hflat => State.memRead8_of_flat hflat a⟩
  case written => exact State.cell_memWrite8_same hwf a v
  case others => exact fun b hb => State.cell_memWrite8_of_ne hwf hb v
  case frame => rfl

/-- Settles O5: a word write is two byte writes to different cells (`ne_add_one`), so that neither undoes the other, and the word of
the two bytes is the word they were cut from. -/
theorem wordsAreLittleEndianAndWrap : Obligations.WordsAreLittleEndianAndWrap := by
  refine ⟨fun s a => ?littleEndian, fun s a w hwf => ⟨?low, ?high, ?others, ?readsBack, ?frame⟩, ?wraps⟩
  case littleEndian => exact wordOf_toNat (s.memRead8 (a + 1)) (s.memRead8 a)
  case low => exact State.cell_memWrite16_low hwf a w
  case high => exact State.cell_memWrite16_high hwf a w
  case others => exact fun b hlow hhigh => State.cell_memWrite16_of_ne hwf hlow hhigh w
  case readsBack => exact fun hflat => State.memRead16_memWrite16 hflat hwf a w
  case frame => rfl
  case wraps => decide

/-- Settles O55: FLAT admits every access by definition and reads the cell (`State.memRead8_of_flat`); reading after a write is
`State.memRead8_memWrite8`. -/
theorem flatMemoryIsPlain : Obligations.FlatMemoryIsPlain := by
  intro s a hflat hwf
  refine ⟨?admitsRead, ?admitsWrite, State.memRead8_of_flat hflat a, fun v b => ⟨?readsBack, ?frame⟩⟩
  case admitsRead => rw [hflat, admitsRead_flat]
  case admitsWrite => rw [hflat, admitsWrite_flat]
  case readsBack => exact State.memRead8_memWrite8 hflat hwf a b v
  case frame => rfl

end Sys2Proof.Machine
end

section
/-! What a completed instruction leaves, in the words the statements use (40_instruction_protocol.md R114 to R118), and the signed
offset of LD HL,SP+r8 (30_encoding.md R90). -/

namespace Sys2Proof.Machine

/-- The PC advance and the ticks, taken from a state that still has the PC, `clk` and parameters of `s` (R117, R118). -/
theorem State.tick_advancePc_eq_finished {s u : State} (hpc : u.pc = s.pc) (hclk : u.clk = s.clk) (hcfg : u.cfg = s.cfg)
    (length cycles : Nat) : (u.advancePc length).tick cycles = s.finished u length cycles := by
  rw [State.finished, ← hpc, ← hclk, ← hcfg]
  rfl

/-- A completed instruction finishes the state that its effects leave: neither they nor the post-effects change `clk` or the
parameters, and PC is the effect's to keep (R26, R114 to R118). -/
theorem complete_eq_finished {n : Instruction} {s : State} (hpc : (perform n.effect s).pc = s.pc) :
    complete n s = s.finished (runPosts n.post (perform n.effect s)) n.length n.cycles := by
  obtain ⟨hclk, _, hcfg⟩ := perform_frame n.effect s
  exact State.tick_advancePc_eq_finished ((runPosts_pc _ _).trans hpc) ((runPosts_clk _ _).trans hclk)
    ((runPosts_cfg _ _).trans hcfg) _ _

/-- An instruction whose data accesses the policy admits runs its record's effects and finishes with its length and cost
(R110, R114 to R118). -/
theorem exec_eq_finished {i : Instr} {s : State} {n : Instruction} (hrec : record i s = some n)
    (hread : s.CanRead (n.effect.readCells s)) (hwrite : s.CanWrite (n.effect.writeCells s)) :
    exec i s = .next (s.finished (runPosts n.post (perform n.effect s)) n.length n.cycles) := by
  rw [exec_eq_execute hrec, execute_of_admitted (List.all_eq_true.mp hread) (List.all_eq_true.mp hwrite),
    complete_eq_finished (record_keeps_pc hrec)]

/-- Adding a sign-extended byte is `deref` at its signed value, as for the zero page (R10, R50). -/
theorem add_sext16_eq_derefAddress (base : Word) (off : Byte) : base + sext16 off = derefAddress base off.toInt := by
  rw [derefAddress, BitVec.ofInt_add, BitVec.ofInt_natCast, BitVec.ofNat_toNat, BitVec.setWidth_eq]
  rfl

/-- Settles O27: the word is SP plus the sign-extended byte, a `deref` address (`add_sext16_eq_derefAddress`); the instruction
touches no memory cell, so it finishes under every policy (`exec_eq_finished`). -/
theorem loadHlFromStackPointerPlusOffset : Obligations.LoadHlFromStackPointerPlusOffset := by
  refine fun r8 s => ⟨?decodes, s.sp + sext16 r8, ?sum, ?runs⟩
  case decodes => exact fun k _ => by cases k <;> rfl
  case sum => rw [add_sext16_eq_derefAddress, derefAddress_toNat]
  case runs => exact exec_eq_finished (i := .ldHlSpR8 r8) rfl rfl rfl

end Sys2Proof.Machine
end

section
/-! What the decoder answers for the bytes at PC, and which cells it fetches: its rows hold no term outside the parameter's set
(30_encoding.md R91 to R93), and one fetch reads the opcode byte and the immediate cells (20_memory.md R61). -/

namespace Sys2Proof

/-- A row that the decoder finds is one of R91's, for that byte, that the parameter admits (R92). -/
theorem findRow_eq_some {k : Bool} {op : Byte} {r : OpcodeRow} (h : findRow k op = some r) :
    r ∈ opcodeRows ∧ r.opcode = op ∧ (k || !r.tier2) = true := by
  have hfound := List.find?_some h
  obtain ⟨hop, hadmit⟩ := Bool.and_eq_true_iff.mp hfound
  exact ⟨List.mem_of_find?_eq_some h, eq_of_beq hop, hadmit⟩

/-- Every row that the parameter admits assembles a term that the parameter admits, whatever its immediate bytes (R91, R92). -/
theorem assemble_wellFormed {k : Bool} {r : OpcodeRow} (hrow : r ∈ opcodeRows) (hadmit : (k || !r.tier2) = true) (b1 b2 : Byte) :
    (r.format.assemble b1 b2).wellFormed k = true := by
  have hrows : opcodeRows.all (fun r => !(k || !r.tier2) || (r.format.assemble b1 b2).wellFormed k) = true := by
    cases k <;> rfl
  simpa [hadmit] using List.all_eq_true.mp hrows r hrow

/-- The decoder gives well-formed terms only: a row's term, or a byte with no handler as itself (R97, R98). -/
theorem decodeBytes_wellFormed (k : Bool) (op b1 b2 : Byte) : (decodeBytes k op b1 b2).wellFormed k = true := by
  cases hrow : findRow k op with
  | none =>
    have hop : decodable k op = false := by rw [← findRow_isSome, hrow, Option.isSome_none]
    rw [decodeBytes_of_not_decodable hop, Instr.wellFormed, hop, Bool.not_false]
  | some r =>
    obtain ⟨hmem, _, hadmit⟩ := findRow_eq_some hrow
    rw [decodeBytes, hrow]
    exact assemble_wellFormed hmem hadmit b1 b2

/-- Three bytes are enough for every opcode, so decoding them gives `decodeBytes` of them (R80, R97). -/
theorem decode_three_bytes (k : Bool) (op b1 b2 : Byte) :
    decode k [op, b1, b2] = .ok (decodeBytes k op b1 b2, [b1, b2].drop (instrLength k op - 1)) := by
  obtain ⟨_, hlen⟩ := instrLength_bounds k op
  have henough : ¬ [b1, b2].length < instrLength k op - 1 := by
    rw [List.length_cons, List.length_singleton]
    omega
  rw [decode, if_neg henough]
  rfl

end Sys2Proof

namespace Sys2Proof.Machine

/-- Every row's format has the length R93 lists for its opcode. -/
theorem format_length_eq_lengthOf {r : OpcodeRow} (hrow : r ∈ opcodeRows) : r.format.length = lengthOf r.opcode := by
  have hrows : opcodeRows.all (fun r => r.format.length == lengthOf r.opcode) = true := by decide +kernel
  exact eq_of_beq (List.all_eq_true.mp hrows r hrow)

/-- The length the decoder takes for a decodable byte is the one R93 lists. -/
theorem instrLength_of_decodable {k : Bool} {op : Byte} (h : decodable k op = true) : instrLength k op = lengthOf op := by
  rw [← findRow_isSome, Option.isSome_iff_exists] at h
  obtain ⟨r, hrow⟩ := h
  obtain ⟨hmem, hop, _⟩ := findRow_eq_some hrow
  rw [instrLength, hrow, ← hop]
  exact format_length_eq_lengthOf hmem

/-- R93 lists the lengths 1, 2 and 3. -/
theorem lengthOf_cases (op : Byte) : lengthOf op = 1 ∨ lengthOf op = 2 ∨ lengthOf op = 3 := by
  unfold lengthOf
  split_ifs <;> simp

/-- For a byte with no handler only the opcode byte is fetched (R290). -/
theorem fetchCells_of_not_decodable {s : State} (h : decodable s.cfg.admitTier2 (s.memRead8 s.pc) = false) :
    fetchCells s = [s.pc] := by
  rw [fetchCells, instrLength_of_not_decodable _ _ h]
  simp

/-- For a decodable byte the opcode byte and then the immediate cells are fetched (R61, R93). -/
theorem fetchCells_of_decodable {s : State} (h : decodable s.cfg.admitTier2 (s.memRead8 s.pc) = true) :
    fetchCells s = s.pc :: immediateCells s := by
  rw [fetchCells, instrLength_of_decodable h, immediateCells]
  rcases lengthOf_cases (s.memRead8 s.pc) with hlen | hlen | hlen <;> simp [hlen, List.range_succ]

/-- A running core whose fetch the policy admits runs the instruction the bytes at PC decode to (R131). -/
theorem step_of_canRead {s : State} (hrun : s.Running) (hfetch : s.CanRead (fetchCells s)) :
    step s = exec (decodeBytes s.cfg.admitTier2 (s.memRead8 s.pc) (s.memRead8 (s.pc + 1)) (s.memRead8 (s.pc + 2))) s := by
  rcases decodeNext_cases s with ⟨a, hcell, hrefused, _⟩ | ⟨_, hd⟩
  · rw [canRead_iff.mp hfetch a hcell] at hrefused
    cases hrefused
  · exact step_of_ok hrun hd

/-- A running core that fetches a byte with no handler latches it (R290, R311). -/
theorem step_of_not_decodable {s : State} (hrun : s.Running) (hpc : s.CanRead [s.pc])
    (hop : decodable s.cfg.admitTier2 (s.memRead8 s.pc) = false) :
    step s = .next (s.raise (.unimplementedOpcode (s.memRead8 s.pc) s.pc)) := by
  rw [step_of_canRead hrun (by rwa [fetchCells_of_not_decodable hop]), decodeBytes_of_not_decodable hop]
  rfl

/-- A running core that fetches a decodable byte with its immediates runs the instruction they decode to (R131). -/
theorem step_of_decodable {s : State} (hrun : s.Running) (hpc : s.CanRead [s.pc]) (himm : s.CanRead (immediateCells s))
    (hop : decodable s.cfg.admitTier2 (s.memRead8 s.pc) = true) :
    step s = exec (decodeBytes s.cfg.admitTier2 (s.memRead8 s.pc) (s.memRead8 (s.pc + 1)) (s.memRead8 (s.pc + 2))) s := by
  refine step_of_canRead hrun ?_
  rw [fetchCells_of_decodable hop, canRead_iff, List.forall_mem_cons]
  exact ⟨canRead_iff.mp hpc s.pc (List.mem_singleton_self _), canRead_iff.mp himm⟩

/-- Settles O39: a latched state has no next state (`fault_eq_none_of_step`); a running one fetches the opcode byte alone, which
latches (`step_of_not_decodable`), or the immediates with it, and runs the term `decodeBytes` gives (`step_of_decodable`), which
is the one `decode` gives (`decode_three_bytes`). -/
theorem stepRunsTheDecodedInstruction : Obligations.StepRunsTheDecodedInstruction := by
  refine ⟨?latched, ?unimplemented, ?decodable⟩
  case latched => exact fun s t hlatch hstep => hlatch (fault_eq_none_of_step hstep)
  case unimplemented => exact fun s hrun hpc hop => step_of_not_decodable hrun hpc hop
  case decodable =>
    intro s i rest hrun hpc himm hop hdecode
    rw [decode_three_bytes] at hdecode
    cases hdecode
    exact ⟨decodeBytes_wellFormed _ _ _ _, step_of_decodable hrun hpc himm hop⟩

end Sys2Proof.Machine
end

section
/-! The 8-bit loads outside 0x40 to 0x7F that go through a memory cell: (HL), (HL+), (HL-), the zero page and (a16)
(42_load_byte_other.md R218, R224 to R234). Each is a byte stored to one cell or A loaded from one. -/

namespace Sys2Proof.Machine

/-- A byte load into a cell from a register or an immediate needs the write alone: the byte is stored, the post-effects follow, and
the instruction finishes (R53, R113 to R118). -/
theorem exec_store_eq_finished {i : Instr} {s : State} {src : Loc8} {a : Word} {cycles length : Nat} {post : List PostEffect}
    (hrec : record i s = some ⟨.loadByte src (.mem a), cycles, length, post⟩) (hsrc : src.cells = []) (hwrite : s.CanWrite [a]) :
    exec i s = .next (s.finished (runPosts post (s.memWrite8 a (read8 src s))) length cycles) := by
  have hread : s.CanRead src.cells := by rw [hsrc]; rfl
  exact exec_eq_finished hrec hread hwrite

/-- A byte load into a register from a cell needs the read alone: the register takes what the policy returns there, the post-effects
follow, and the instruction finishes (R52, R113 to R118). -/
theorem exec_load_eq_finished {i : Instr} {s : State} {a : Word} {dst : Reg8} {cycles length : Nat} {post : List PostEffect}
    (hrec : record i s = some ⟨.loadByte (.mem a) (.reg dst), cycles, length, post⟩) (hread : s.CanRead [a]) :
    exec i s = .next (s.finished (runPosts post (s.setReg8 dst (s.memRead8 a))) length cycles) :=
  exec_eq_finished hrec hread rfl

/-- Settles O19: the source is the captured immediate, so the store to (HL) is the one access (`exec_store_eq_finished`). -/
theorem storeImmediateByteToHlCell : Obligations.StoreImmediateByteToHlCell := by
  refine fun d8 s hwrite => ⟨?decodes, ?stores⟩
  case decodes => exact fun k _ => by cases k <;> rfl
  case stores => exact exec_store_eq_finished (i := .ldAtHlD8 d8) rfl rfl hwrite

/-- Settles O21: the access is at HL as the step found it, and neither a store nor a load of A changes HL before the post-effect
moves it. -/
theorem autoIncrementAndDecrementLoads : Obligations.AutoIncrementAndDecrementLoads := by
  refine fun s => ⟨?decodes, ?storeInc, ?loadInc, ?storeDec, ?loadDec⟩
  case decodes => exact fun k _ _ => by cases k <;> exact ⟨rfl, rfl, rfl, rfl⟩
  case storeInc => exact exec_store_eq_finished (i := .ldAtHlIncA) rfl rfl
  case loadInc => exact exec_load_eq_finished (i := .ldAAtHlInc) rfl
  case storeDec => exact exec_store_eq_finished (i := .ldAtHlDecA) rfl rfl
  case loadDec => exact exec_load_eq_finished (i := .ldAAtHlDec) rfl

/-- The signed-extended offset reaches 0xFF00 to 0xFF7F, and 0xFE80 to 0xFEFF for the negative bytes (R87, R228). -/
theorem zeroPage_sext_toNat (off : Byte) :
    (zeroPage .sext off).toNat = if off.toNat ≤ 0x7F then 0xFF00 + off.toNat else 0xFE00 + off.toNat := by
  have hbase : (0xFF00 : Word).toNat = 0xFF00 := rfl
  have hlt := off.isLt
  have hsum := derefAddress_toNat 0xFF00 off.toInt
  rw [← (zeroPage_eq_derefAddress off).1, hbase, BitVec.toInt_eq_toNat_cond] at hsum
  split_ifs at hsum ⊢ <;> omega

/-- The zero-extended offset stays in the page at 0xFF00 (R87, R228). -/
theorem zeroPage_zext_toNat (off : Byte) : (zeroPage .zext off).toNat = 0xFF00 + off.toNat := by
  have hbase : (0xFF00 : Word).toNat = 0xFF00 := rfl
  have hlt := off.isLt
  have hsum := derefAddress_toNat 0xFF00 off.toNat
  rw [← (zeroPage_eq_derefAddress off).2, hbase] at hsum
  omega

/-- Settles O22: both addresses are `deref` of 0xFF00 (`zeroPage_eq_derefAddress`), whose sum wraps for no offset. -/
theorem zeroPageAddress : Obligations.ZeroPageAddress :=
  fun off => ⟨zeroPage_sext_toNat off, zeroPage_zext_toNat off⟩

/-- Settles O23: the cell is the zero-page address of the immediate or of C, captured from the state before, and A is the other
operand. -/
theorem zeroPageLoadsAndStores : Obligations.ZeroPageLoadsAndStores := by
  refine fun a8 s => ⟨?decodes, ?storeA8, ?loadA8, ?storeC, ?loadC⟩
  case decodes => exact fun k _ _ => by cases k <;> exact ⟨rfl, rfl, rfl, rfl⟩
  case storeA8 => exact exec_store_eq_finished (i := .ldhAtA8A a8) rfl rfl
  case loadA8 => exact exec_load_eq_finished (i := .ldhAAtA8 a8) rfl
  case storeC => exact exec_store_eq_finished (i := .ldAtCA) rfl rfl
  case loadC => exact exec_load_eq_finished (i := .ldAAtC) rfl

/-- Settles O24: the decoder joins the immediate bytes low byte first, and the cell of that address is the one access. -/
theorem absoluteLoadAndStore : Obligations.AbsoluteLoadAndStore := by
  refine fun lo hi s => ⟨?decodes, ?stores, ?loads⟩
  case decodes => exact fun k => by cases k <;> exact ⟨rfl, rfl⟩
  case stores => exact exec_store_eq_finished (i := .ldAtA16A (wordOf hi lo)) rfl rfl
  case loads => exact exec_load_eq_finished (i := .ldAAtA16 (wordOf hi lo)) rfl

end Sys2Proof.Machine
end

section
/-! The 16-bit loads between registers (43_load_word.md R257). -/

namespace Sys2Proof.Machine

/-- Settles O28: the word is the pair HL as the step found it; the instruction touches no memory cell, so it finishes under every
policy (`exec_eq_finished`). -/
theorem loadStackPointerFromHl : Obligations.LoadStackPointerFromHl := by
  refine fun s => ⟨?decodes, ?runs⟩
  case decodes => exact fun k _ _ => by cases k <;> rfl
  case runs => exact exec_eq_finished (i := .ldSpHl) rfl rfl rfl

end Sys2Proof.Machine
end

section
/-! PUSH and POP (44_push_pop.md R270 to R280): each over an arbitrary pair, as a meaning where the policy admits its two stack cells,
and as a step under FLAT. -/

namespace Sys2Proof.Machine

/-- The second cell of a pushed word is the one just below the old SP, at the wrap too (R270). -/
theorem sub_two_add_one (sp : Word) : sp - 2 + 1 = sp - 1 := by bv_omega

/-- The pair code of a PUSH opcode selects the pair stored (R86, R270). -/
theorem decodeBytes_pushOpcode (p : Pair) (k : Bool) (b1 b2 : Byte) : decodeBytes k (pushOpcode p) b1 b2 = .push p := by
  cases k <;> cases p <;> rfl

/-- The pair code of a POP opcode selects the pair loaded (R86, R271). -/
theorem decodeBytes_popOpcode (p : Pair) (k : Bool) (b1 b2 : Byte) : decodeBytes k (popOpcode p) b1 b2 = .pop p := by
  cases k <;> cases p <;> rfl

theorem record_push (p : Pair) (s : State) : record (.push p) s = some ⟨.push (.pair p), 16, 1, []⟩ := by
  cases p <;> rfl

theorem record_pop (p : Pair) (s : State) : record (.pop p) s = some ⟨.pop (.pair p), 12, 1, []⟩ := by
  cases p <;> rfl

/-! The states that PUSH and POP leave when they complete. -/

/-- `s` after PUSH of a pair: its word stands at the new top of the stack (R122, R270). `exec_push` ties it to the meaning. -/
def State.pushed (p : Pair) (s : State) : State :=
  s.finished ((s.setSp (s.sp - 2)).memWrite16 (s.sp - 2) (s.pair p)) 1 16

/-- `s` after POP of a pair: it holds the word at the old top of the stack (R123, R271). `exec_pop` ties it to the meaning. -/
def State.popped (p : Pair) (s : State) : State :=
  s.finished ((s.setPair p (s.memRead16 s.sp)).setSp (s.sp + 2)) 1 12

theorem exec_push {p : Pair} {s : State} (hwrite : s.CanWrite [s.sp - 2, s.sp - 1]) :
    exec (.push p) s = .next (s.pushed p) :=
  exec_eq_finished (record_push p s) rfl hwrite

theorem exec_pop {p : Pair} {s : State} (hread : s.CanRead [s.sp, s.sp + 1]) : exec (.pop p) s = .next (s.popped p) :=
  exec_eq_finished (record_pop p s) hread rfl

@[simp] theorem State.pushed_sp (p : Pair) (s : State) : (s.pushed p).sp = s.sp - 2 := rfl
@[simp] theorem State.pushed_pc (p : Pair) (s : State) : (s.pushed p).pc = s.pc + 1 := rfl
@[simp] theorem State.pushed_clk (p : Pair) (s : State) : (s.pushed p).clk = s.clk + 16 + s.cfg.tickBias.val := rfl
@[simp] theorem State.pushed_fault (p : Pair) (s : State) : (s.pushed p).fault = s.fault := rfl
@[simp] theorem State.pushed_cfg (p : Pair) (s : State) : (s.pushed p).cfg = s.cfg := rfl

@[simp] theorem State.popped_sp (p : Pair) (s : State) : (s.popped p).sp = s.sp + 2 := rfl
@[simp] theorem State.popped_pc (p : Pair) (s : State) : (s.popped p).pc = s.pc + 1 := rfl
@[simp] theorem State.popped_clk (p : Pair) (s : State) : (s.popped p).clk = s.clk + 12 + s.cfg.tickBias.val := rfl
@[simp] theorem State.popped_fault (p : Pair) (s : State) : (s.popped p).fault = s.fault := by cases p <;> rfl
@[simp] theorem State.popped_memRead8 (p : Pair) (s : State) (a : Word) : (s.popped p).memRead8 a = s.memRead8 a := by
  cases p <;> rfl

/-- POP puts the word at the top of the stack in its pair (R271). -/
@[simp] theorem State.popped_pair (p : Pair) (s : State) : (s.popped p).pair p = s.memRead16 s.sp := by
  have hpair : (s.popped p).pair p = (s.setPair p (s.memRead16 s.sp)).pair p := by cases p <;> rfl
  rw [hpair, State.pair_setPair]

/-- Under FLAT a byte read after PUSH: the high byte of the pair just below the old SP, the low byte below that, and every other byte
as before (R51, R270). -/
theorem State.pushed_memRead8 {s : State} (hflat : s.cfg.memmap = .flat) (hwf : s.mem.wf = true) (p : Pair) (a : Word) :
    (s.pushed p).memRead8 a =
      if a = s.sp - 1 then hi8 (s.pair p) else if a = s.sp - 2 then lo8 (s.pair p) else s.memRead8 a := by
  rw [← sub_two_add_one]
  exact State.memRead8_memWrite16 (s := s.setSp (s.sp - 2)) hflat hwf (s.sp - 2) a (s.pair p)

/-- Under FLAT the word at the new SP after PUSH is the one the pair held (R51, R270). -/
theorem State.pushed_memRead16 {s : State} (hflat : s.cfg.memmap = .flat) (hwf : s.mem.wf = true) (p : Pair) :
    (s.pushed p).memRead16 (s.sp - 2) = s.pair p :=
  State.memRead16_memWrite16 (s := s.setSp (s.sp - 2)) hflat hwf (s.sp - 2) (s.pair p)

/-! The steps under FLAT, which admits every access (R51). -/

theorem canRead_of_flat {s : State} (hflat : s.cfg.memmap = .flat) (cells : List Word) : s.CanRead cells :=
  canRead_iff.mpr fun a _ => by rw [hflat, admitsRead_flat]

theorem canWrite_of_flat {s : State} (hflat : s.cfg.memmap = .flat) (cells : List Word) : s.CanWrite cells :=
  canWrite_iff.mpr fun a _ => by rw [hflat, admitsWrite_flat]

theorem step_of_pushOpcode {p : Pair} {s : State} (hrun : s.Running) (hflat : s.cfg.memmap = .flat)
    (hop : s.memRead8 s.pc = pushOpcode p) : step s = .next (s.pushed p) := by
  rw [step_of_canRead hrun (canRead_of_flat hflat _), hop, decodeBytes_pushOpcode, exec_push (canWrite_of_flat hflat _)]

theorem step_of_popOpcode {p : Pair} {s : State} (hrun : s.Running) (hflat : s.cfg.memmap = .flat)
    (hop : s.memRead8 s.pc = popOpcode p) : step s = .next (s.popped p) := by
  rw [step_of_canRead hrun (canRead_of_flat hflat _), hop, decodeBytes_popOpcode, exec_pop (canRead_of_flat hflat _)]

/-- Settles O31: PUSH stores no byte over the POP's opcode, so the second step is a POP at the SP that PUSH left; the word it reads
there is the one just pushed (`State.pushed_memRead16`), and it writes no memory (`State.popped_memRead8`). -/
theorem pushThenPopTransfersTheValue : Obligations.PushThenPopTransfersTheValue := by
  intro p q s hrun hwf hflat hpush hpop hlow hhigh
  have hnext : (s.pushed p).memRead8 (s.pushed p).pc = popOpcode q := by
    rw [State.pushed_pc, State.pushed_memRead8 hflat hwf, if_neg hhigh, if_neg hlow, hpop]
  have htwo : s.sp - 2 ≠ s.sp - 1 := by
    rw [← sub_two_add_one]
    exact ne_add_one _
  refine ⟨s.pushed p, (s.pushed p).popped q, step_of_pushOpcode hrun hflat hpush, step_of_popOpcode hrun hflat hnext,
    ?value, ?sp, ?lowByte, ?highByte, ?clk, ?pc, ?running⟩
  case value => rw [State.popped_pair, State.pushed_sp, State.pushed_memRead16 hflat hwf]
  case sp => rw [State.popped_sp, State.pushed_sp, BitVec.sub_add_cancel]
  case lowByte => rw [State.popped_memRead8, State.pushed_memRead8 hflat hwf, if_neg htwo, if_pos rfl]
  case highByte => rw [State.popped_memRead8, State.pushed_memRead8 hflat hwf, if_pos rfl]
  case clk =>
    rw [State.popped_clk, State.pushed_clk, State.pushed_cfg]
    omega
  case pc =>
    rw [State.popped_pc, State.pushed_pc, BitVec.add_assoc]
    rfl
  case running => rw [State.Running, State.popped_fault, State.pushed_fault, hrun]

/-- Settles O29: the state PUSH leaves (`exec_push`) has the word stored as its two bytes, low byte first, at the new SP and the
address above it, which is the old SP minus 1 (`sub_two_add_one`). -/
theorem pushStoresThePair : Obligations.PushStoresThePair := by
  refine fun p s hwrite => ⟨decodeBytes_pushOpcode p, ?runs⟩
  case runs =>
    rw [exec_push hwrite, State.pushed, State.memWrite16, sub_two_add_one]
    rfl

/-- Settles O30: the word POP reads is the two bytes at SP, and the halves of it that the pair takes (`exec_pop`) are those bytes
(`hi8_wordOf`, `lo8_wordOf`). -/
theorem popLoadsThePair : Obligations.PopLoadsThePair := by
  intro s hread lo hi
  have hhi : hi8 (s.memRead16 s.sp) = hi := hi8_wordOf hi lo
  have hlo : lo8 (s.memRead16 s.sp) = lo := lo8_wordOf hi lo
  refine ⟨decodeBytes_popOpcode, ?bc, ?de, ?hl, ?af⟩
  all_goals
    rw [exec_pop hread, ← hhi, ← hlo]
    rfl

end Sys2Proof.Machine
end

section
/-! A byte with no handler: its term latches the condition, and the step that fetches it does the same (45_unimplemented.md R290). -/

namespace Sys2Proof.Machine

/-- The term of a byte with no handler is the fault entry alone, with the byte and PC (R311, R313). -/
theorem exec_unimplemented (op : Byte) (s : State) :
    exec (.unimplemented op) s = .next (s.raise (.unimplementedOpcode op s.pc)) := rfl

/-- Settles O38: the term's meaning is the fault entry (`exec_unimplemented`), which sets the latch alone; a running core that fetches
such a byte takes that same fault entry as its step (`step_of_not_decodable`). -/
theorem unimplementedByteLatches : Obligations.UnimplementedByteLatches := by
  refine fun op s hop => ⟨exec_unimplemented op s, fun hrun hpc hfetched => ?steps⟩
  case steps =>
    subst hfetched
    exact step_of_not_decodable hrun hpc hop

end Sys2Proof.Machine
end

section
/-! Fault entry is the latch alone, and faults are precise (60_exceptions.md R313, R314). -/

namespace Sys2Proof.Machine

/-- A step that answers a state ran all four phases of the instruction it decoded, or set the latch alone (R131, R313). -/
theorem step_completes_or_raises {s t : State} (h : step s = .next t) :
    (∃ i n, decodeNext s = .ok i ∧ record i s = some n ∧ refusedData n.effect s = none ∧ t = complete n s) ∨
    ∃ r, t = s.raise r := by
  obtain ⟨_, ⟨r, _, ht⟩ | ⟨i, hd, hexec⟩⟩ := step_cases h
  · exact .inr ⟨r, ht⟩
  · rcases exec_next_cases hexec with ⟨n, hrec, hdata, ht⟩ | hraise
    · exact .inl ⟨i, n, hd, hrec, hdata, ht⟩
    · exact .inr hraise

/-- A step that ends latched with `r` is the fault entry of `r`: a completed instruction would have kept the latch empty (R313). -/
theorem eq_raise_of_step {s t : State} {r : FaultRecord} (hstep : step s = .next t) (hfault : t.fault = some r) :
    t = s.raise r := by
  rcases step_completes_or_raises hstep with ⟨_, n, _, _, _, rfl⟩ | ⟨r', rfl⟩
  · rw [complete_fault, fault_eq_none_of_step hstep] at hfault
    cases hfault
  · rw [State.raise_fault_eq] at hfault
    cases hfault
    rfl

/-- Settles O53: a run of no steps would leave the latch empty, so there is a last step (`run_last_step`); the state it starts from
has an empty latch (`fault_eq_none_of_step`), so the steps before it are a safe run, and it is the fault entry
(`eq_raise_of_step`). -/
theorem faultedRunIsACompletedRunPlusTheLatch : Obligations.FaultedRunIsACompletedRunPlusTheLatch := by
  intro k s t r hrunning hrun hfault
  cases k with
  | zero =>
    cases hrun
    cases hrunning.symm.trans hfault
  | succ j =>
    obtain ⟨u, hbefore, hlast⟩ := run_last_step j hrun
    exact ⟨j, u, rfl, ⟨hbefore, fault_eq_none_of_step hlast⟩, eq_raise_of_step hlast hfault⟩

/-- Settles O42: the failing step is the fault entry (`eq_raise_of_step`), which keeps every field but the latch. -/
theorem failingStepChangesOnlyTheLatch : Obligations.FailingStepChangesOnlyTheLatch := by
  intro s t r hstep hfault
  rw [eq_raise_of_step hstep hfault]
  exact ⟨rfl, rfl, rfl, rfl, rfl, rfl, rfl, rfl, rfl, rfl, rfl, rfl, rfl⟩

end Sys2Proof.Machine
end

section
/-! Decoder and encoder are each other's inverse (30_encoding.md sections 1 to 3 and 6): the encoding of what the decoder gives is
the opcode byte with the immediate bytes of its length, and every well-formed term is what the decoder gives for its encoding. -/

namespace Sys2Proof

/-- The encoding of a row's term is the row's opcode with as many of the immediate bytes as its format has (R80 to R83, R91). -/
theorem encode_assemble {r : OpcodeRow} (hrow : r ∈ opcodeRows) (b1 b2 : Byte) :
    encode (r.format.assemble b1 b2) = r.opcode :: [b1, b2].take (r.format.length - 1) := by
  have hrows : opcodeRows.all
      (fun r => encode (r.format.assemble b1 b2) = r.opcode :: [b1, b2].take (r.format.length - 1)) = true := by
    simp [opcodeRows, rowsLow, rows40, rows48, rows50, rows58, rows60, rows68, rows70, rows78, rowsHigh, Format.assemble,
      Format.length, encode]
  exact of_decide_eq_true (List.all_eq_true.mp hrows r hrow)

/-- The encoding of the decoder's answer is the opcode byte and the immediate bytes of its length (R93, R97). -/
theorem encode_decodeBytes (k : Bool) (op b1 b2 : Byte) :
    encode (decodeBytes k op b1 b2) = op :: [b1, b2].take (instrLength k op - 1) := by
  rw [decodeBytes, instrLength]
  cases hrow : findRow k op with
  | none => rfl
  | some r =>
    obtain ⟨hmem, hop, _⟩ := findRow_eq_some hrow
    exact hop ▸ encode_assemble hmem b1 b2

/-- Immediate bytes beyond the opcode's length are not looked at (R97). -/
theorem decodeBytes_congr {k : Bool} {op b1 b2 c1 c2 : Byte}
    (h : [b1, b2].take (instrLength k op - 1) = [c1, c2].take (instrLength k op - 1)) :
    decodeBytes k op b1 b2 = decodeBytes k op c1 c2 := by
  unfold decodeBytes
  unfold instrLength at h
  cases hrow : findRow k op with
  | none => rfl
  | some r =>
    rw [hrow] at h
    cases hformat : r.format <;> simp_all [Format.length, Format.assemble]

/-- An opcode with an immediate word takes the word's low byte first, and so reads back the word (R83, R89). -/
theorem decodeBytes_word {k : Bool} {op : Byte} {f : Word → Instr}
    (hop : ∀ b1 b2, decodeBytes k op b1 b2 = f (wordOf b2 b1)) (w : Word) : decodeBytes k op (lo8 w) (hi8 w) = f w := by
  rw [hop, wordOf_hi8_lo8]

/-- A well-formed term is what the decoder gives for the bytes of its encoding; a tier-2 term is well formed only where
`ADMIT_TIER2` is true (R91, R92). -/
theorem decodeBytes_encode {k : Bool} {i : Instr} (hwf : i.wellFormed k = true) :
    decodeBytes k ((encode i).getD 0 0) ((encode i).getD 1 0) ((encode i).getD 2 0) = i := by
  cases i with
  | unimplemented op => 
    have hop : decodable k op = false := by simpa [Instr.wellFormed] using hwf
    exact decodeBytes_of_not_decodable hop _ _
  | ldBcD16 w | ldAtA16A w | ldAAtA16 w => exact decodeBytes_word (fun _ _ => by cases k <;> rfl) w
  | ldDeD16 w | ldHlD16 w | ldSpD16 w | ldAtA16Sp w =>
    obtain rfl : k = true := hwf
    exact decodeBytes_word (fun _ _ => rfl) w
  | ldAAtBc | ldAtDeA | ldAAtDe | ldLD8 _ =>
    obtain rfl : k = true := hwf
    rfl
  | _ => cases k <;> rfl

/-- The decoder looks at up to two bytes after the opcode: where the list is long enough, they are the list's first bytes. -/
theorem take_getD_pair {n : Nat} {l : List Byte} (hn : n ≤ 2) (hl : n ≤ l.length) :
    [l.getD 0 0, l.getD 1 0].take n = l.take n := by
  match l with
  | [] =>
    obtain rfl := Nat.le_zero.mp hl
    rfl
  | [x] =>
    obtain rfl | rfl : n = 0 ∨ n = 1 := by rw [List.length_singleton] at hl; omega
    all_goals rfl
  | x :: y :: l =>
    obtain rfl | rfl | rfl : n = 0 ∨ n = 1 ∨ n = 2 := by omega
    all_goals rfl

/-- Decoding an opcode byte, the immediate bytes of its length and any further bytes takes the first two and leaves the rest (R97). -/
theorem decode_immediates (k : Bool) (op b1 b2 : Byte) (rest : List Byte) :
    decode k (op :: [b1, b2].take (instrLength k op - 1) ++ rest) = .ok (decodeBytes k op b1 b2, rest) := by
  obtain ⟨hmin, hmax⟩ := instrLength_bounds k op
  have hlen : ([b1, b2].take (instrLength k op - 1)).length = instrLength k op - 1 := by
    simp only [List.length_take, List.length_cons, List.length_nil]
    omega
  rw [List.cons_append, decode, if_neg (by rw [List.length_append]; omega), List.drop_left' hlen]
  congr 2
  refine decodeBytes_congr ?_
  rw [take_getD_pair (by omega) (by rw [List.length_append]; omega), List.take_left' hlen]

/-- Settles O8: the term is what the decoder gives for the bytes of its encoding (`decodeBytes_encode`), the encoding has the opcode's
immediates and nothing more (`encode_decodeBytes`), and the bytes after it are left (`decode_immediates`). -/
theorem decodeOfEncodeIsTheInstruction : Obligations.DecodeOfEncodeIsTheInstruction := by
  intro k i rest hwf
  obtain ⟨op, b1, b2, rfl⟩ : ∃ op b1 b2, decodeBytes k op b1 b2 = i := ⟨_, _, _, decodeBytes_encode hwf⟩
  rw [encode_decodeBytes, decode_immediates]

/-- Settles O9: the decoder accepts an opcode byte only with the immediates of its length after it, which are the ones its term
encodes to (`encode_decodeBytes`), and gives well-formed terms alone (`decodeBytes_wellFormed`). -/
theorem decodedBytesAreTheEncoding : Obligations.DecodedBytesAreTheEncoding := by
  intro k bs rest i hdecode
  cases bs with
  | nil => cases hdecode
  | cons op tail =>
    rw [decode] at hdecode
    split_ifs at hdecode with hshort
    cases hdecode
    refine ⟨?_, decodeBytes_wellFormed _ _ _ _⟩
    have hmax := (instrLength_bounds k op).2
    rw [encode_decodeBytes, take_getD_pair (by omega) (by omega), List.cons_append, List.take_append_drop]

/-- Only a byte with no handler decodes to the `unimplemented` term, which carries that byte (R97, R290). -/
theorem decodeBytes_eq_unimplemented {k : Bool} {op op' b1 b2 : Byte} (h : decodeBytes k op b1 b2 = .unimplemented op') :
    op' = op ∧ decodable k op = false := by
  have hop := encode_decodeBytes k op b1 b2
  have hwf := decodeBytes_wellFormed k op b1 b2
  rw [h] at hop hwf
  obtain ⟨rfl, _⟩ := List.cons.inj hop
  exact ⟨rfl, by simpa [Instr.wellFormed] using hwf⟩

/-- Settles O10: the first byte of the encoding is the opcode (`encode_decodeBytes`), and the bytes with no handler are the ones that
decode to the `unimplemented` term (`decodeBytes_eq_unimplemented`). -/
theorem everyOpcodeByteDecodesToItself : Obligations.EveryOpcodeByteDecodesToItself := by
  refine fun k op b1 b2 => ⟨decodeBytes_wellFormed k op b1 b2, ?firstByte, ?undecodable, ?unimplemented⟩
  case firstByte => rw [encode_decodeBytes, List.head?_cons]
  case undecodable => exact fun hop => decodeBytes_of_not_decodable hop b1 b2
  case unimplemented => exact fun hdec => (decodeBytes_eq_unimplemented hdec).2

/-- Settles O12: both counts are a run of `decodable` over the 256 byte values. -/
theorem unimplementedByteCounts : Obligations.UnimplementedByteCounts :=
  ⟨by decide +kernel, by decide +kernel, rfl⟩

/-- A table word decodes to what `decodeBytes` gives for its three bytes (R97). -/
theorem decodeTableWord_eq (nbits w : Nat) :
    decodeTableWord nbits w = some (decodeBytes Config.hardware.admitTier2 (BitVec.ofNat 8 (w % 2 ^ nbits))
      (BitVec.ofNat 8 (w % 2 ^ nbits / 2 ^ 8)) (BitVec.ofNat 8 (w % 2 ^ nbits / 2 ^ 16))) := by
  rw [decodeTableWord, tableBytes, decode_three_bytes]

/-- Settles O13: each word's bytes (`decodeTableWord_eq`) name a row, whose immediates are the numbers written above the opcode. -/
theorem wordsFromTheEncodingTableDecode : Obligations.WordsFromTheEncodingTableDecode := by
  simp only [Obligations.WordsFromTheEncodingTableDecode, decodeTableWord_eq]
  exact ⟨rfl, rfl, rfl, rfl, rfl, rfl, rfl, rfl, rfl, rfl, rfl, rfl⟩

end Sys2Proof
end

section
/-! The register codes of the block 0x40 to 0x7F and of LD r,d8, and what these instructions do (41_load_byte_reg.md sections 1 and 2,
42_load_byte_other.md section 2). -/

namespace Sys2Proof.Machine

/-- The source code and the destination code of a register move select its two registers (R85, R94). -/
theorem decodeBytes_regMove (k : Bool) (dst r : Reg8) (b1 b2 : Byte) :
    decodeBytes k (blockOpcode (regCode dst) (regCode r)) b1 b2 = .regMove dst r := by
  cases k <;> cases dst <;> cases r <;> rfl

/-- Source code 6 is the cell at HL (R94, R142). -/
theorem decodeBytes_loadAtHl (k : Bool) (dst : Reg8) (b1 b2 : Byte) :
    decodeBytes k (blockOpcode (regCode dst) 6) b1 b2 = .loadAtHl dst := by
  cases k <;> cases dst <;> rfl

/-- Destination code 6 is the cell at HL (R94, R142). -/
theorem decodeBytes_storeAtHl (k : Bool) (r : Reg8) (b1 b2 : Byte) :
    decodeBytes k (blockOpcode 6 (regCode r)) b1 b2 = .storeAtHl r := by
  cases k <;> cases r <;> rfl

theorem record_regMove (dst r : Reg8) (s : State) :
    record (.regMove dst r) s = some ⟨.loadByte (.reg r) (.reg dst), 4, 1, []⟩ := by
  cases dst <;> cases r <;> rfl

theorem record_loadAtHl (dst : Reg8) (s : State) :
    record (.loadAtHl dst) s = some ⟨.loadByte (.mem (s.pair .hl)) (.reg dst), 8, 1, []⟩ := by
  cases dst <;> rfl

theorem record_storeAtHl (r : Reg8) (s : State) :
    record (.storeAtHl r) s = some ⟨.loadByte (.reg r) (.mem (s.pair .hl)), 8, 1, []⟩ := by
  cases r <;> rfl

theorem record_loadImm8 (dst : Reg8) (d8 : Byte) (s : State) :
    record (.loadImm8 dst d8) s = some ⟨.loadByte (.imm d8) (.reg dst), 8, 2, []⟩ := by
  cases dst <;> rfl

/-- Settles O11: the rows of the block, and 0x76, which has none and so is the `unimplemented` term (`exec_unimplemented`). -/
theorem blockOpcodesNameDestinationThenSource : Obligations.BlockOpcodesNameDestinationThenSource := by
  intro k b1 b2
  have hhalt : decodeBytes k 0x76 b1 b2 = .unimplemented 0x76 := decodeBytes_of_not_decodable (by cases k <;> rfl) b1 b2
  refine ⟨fun dst r => decodeBytes_regMove k dst r b1 b2, fun dst => decodeBytes_loadAtHl k dst b1 b2,
    fun r => decodeBytes_storeAtHl k r b1 b2, rfl, hhalt, fun s => ?latches⟩
  case latches => rw [hhalt, exec_unimplemented]

/-- Settles O15: a register move touches no memory cell, so it finishes under every policy. -/
theorem registerMoveCopies : Obligations.RegisterMoveCopies :=
  fun dst r s => exec_eq_finished (record_regMove dst r s) rfl rfl

/-- Settles O16: the cell is the one at HL as the step found it, and its read is the one access. -/
theorem loadFromHlCell : Obligations.LoadFromHlCell :=
  fun dst s hread => ⟨fun k => decodeBytes_loadAtHl k dst, exec_load_eq_finished (record_loadAtHl dst s) hread⟩

/-- Settles O17: the byte and the address are those of the state before, and the store is the one access. -/
theorem storeToHlCell : Obligations.StoreToHlCell :=
  fun r s hwrite => ⟨fun k => decodeBytes_storeAtHl k r, exec_store_eq_finished (record_storeAtHl r s) rfl hwrite⟩

/-- Settles O18: of the seven rows LD L,d8 alone is tier 2; the source is the captured immediate, so there is no data access. -/
theorem loadImmediateByte : Obligations.LoadImmediateByte := by
  refine fun dst d8 s => ⟨fun b2 => ?tier2, fun b2 => ?tier1, ?runs⟩
  case tier2 => cases dst <;> rfl
  case tier1 => cases dst <;> rfl
  case runs => exact exec_eq_finished (record_loadImm8 dst d8 s) rfl rfl

/-- Settles O20: each cell is the one at the pair as the step found it, and its access is the only one; the three tier-2 bytes have no
handler when `ADMIT_TIER2` is false. -/
theorem indirectThroughBcAndDe : Obligations.IndirectThroughBcAndDe := by
  refine fun s => ⟨fun k _ _ => ?bcStore, fun _ _ => ⟨rfl, rfl, rfl⟩, fun b1 b2 op hop => ?tier1,
    exec_store_eq_finished (i := .ldAtBcA) rfl rfl, exec_store_eq_finished (i := .ldAtDeA) rfl rfl,
    exec_load_eq_finished (i := .ldAAtBc) rfl, exec_load_eq_finished (i := .ldAAtDe) rfl⟩
  case bcStore => cases k <;> rfl
  case tier1 =>
    have hnone : ∀ op ∈ ([0x12, 0x0A, 0x1A] : List Byte), decodable false op = false := by decide
    exact decodeBytes_of_not_decodable (hnone op hop) b1 b2

end Sys2Proof.Machine
end

section
/-! LD rr,d16 and LD (a16),SP (43_load_word.md sections 2 and 3). -/

namespace Sys2Proof.Machine

/-- A word load from an immediate touches no memory cell: the destination takes the word, and the instruction finishes (R251 to R254). -/
theorem exec_immediateWord_eq_finished {i : Instr} {s : State} {w : Word} (dst : Loc16) {cycles length : Nat}
    (hrec : record i s = some ⟨.loadWord (.val w) dst, cycles, length, []⟩) (hdst : dst.cells = []) :
    exec i s = .next (s.finished (write16 dst w s) length cycles) := by
  have hwrite : s.CanWrite dst.cells := by rw [hdst]; rfl
  exact exec_eq_finished hrec rfl hwrite

/-- The four loads of an immediate word: a pair's first-named register takes the high byte (R24, R251 to R254). -/
theorem exec_loadImmediateWord (w : Word) (s : State) :
    exec (.ldBcD16 w) s = .next (s.finished { s with b := hi8 w, c := lo8 w } 3 12) ∧
    exec (.ldDeD16 w) s = .next (s.finished { s with d := hi8 w, e := lo8 w } 3 12) ∧
    exec (.ldHlD16 w) s = .next (s.finished { s with h := hi8 w, l := lo8 w } 3 12) ∧
    exec (.ldSpD16 w) s = .next (s.finished { s with sp := w } 3 12) :=
  ⟨exec_immediateWord_eq_finished (.pair .bc) rfl rfl, exec_immediateWord_eq_finished (.pair .de) rfl rfl,
    exec_immediateWord_eq_finished (.pair .hl) rfl rfl, exec_immediateWord_eq_finished .sp rfl rfl⟩

/-- Settles O25: the immediate word is the third byte over the second, so the halves that a pair takes (`hi8_wordOf`, `lo8_wordOf`) are
those bytes. -/
theorem loadImmediateWord : Obligations.LoadImmediateWord := by
  intro lo hi s
  have hruns := exec_loadImmediateWord (wordOf hi lo) s
  rw [hi8_wordOf, lo8_wordOf] at hruns
  refine ⟨fun k => ?decodesBc, rfl, rfl, rfl, fun op hop => ?tier1, hruns⟩
  case decodesBc => cases k <;> rfl
  case tier1 =>
    have hnone : ∀ op ∈ ([0x11, 0x21, 0x31] : List Byte), decodable false op = false := by decide
    exact decodeBytes_of_not_decodable (hnone op hop) lo hi

/-- Settles O26: a word store is its low byte's and then its high byte's, at two cells that the policy admits. -/
theorem storeStackPointer : Obligations.StoreStackPointer := by
  refine fun lo hi s => ⟨rfl, decodeBytes_of_not_decodable rfl lo hi, fun hwrite => ?runs⟩
  case runs => exact exec_eq_finished (i := .ldAtA16Sp _) rfl rfl hwrite

end Sys2Proof.Machine
end

section
/-! Canonical memories are their contents (10_state.md section 6): equal contents are equal lists, and every contents is listed. -/

namespace Sys2Proof.Machine

/-- The first entry of a canonical memory is above the bound, below 65536 and not what an unlisted cell reads as, and the others are
canonical above it. -/
theorem Memory.wfFrom_cons {low a : Nat} {v : Byte} {rest : Memory} (h : Memory.wfFrom low ((a, v) :: rest) = true) :
    low ≤ a ∧ a < 65536 ∧ v ≠ Memory.unlisted ∧ Memory.wfFrom (a + 1) rest = true := by
  simpa [Memory.wfFrom, and_assoc] using h

theorem Memory.read_cons_self (a : Nat) (v : Byte) (rest : Memory) : Memory.read ((a, v) :: rest) a = v := if_pos rfl

theorem Memory.read_cons_of_ne {a k : Nat} (hk : k ≠ a) (v : Byte) (rest : Memory) :
    Memory.read ((a, v) :: rest) k = Memory.read rest k := if_neg hk

/-- A canonical memory lists its first address: it reads there as no unlisted cell does. -/
theorem Memory.read_first_ne_unlisted {low a : Nat} {v : Byte} {rest : Memory}
    (h : Memory.wfFrom low ((a, v) :: rest) = true) : Memory.read ((a, v) :: rest) a ≠ Memory.unlisted := by
  obtain ⟨_, _, hv, _⟩ := Memory.wfFrom_cons h
  rwa [Memory.read_cons_self]

/-- Where two canonical memories read alike, the first address of one is not below the first address of the other. -/
theorem Memory.first_le_of_read_eq {low a b : Nat} {v w : Byte} {rest rest' : Memory}
    (h : Memory.wfFrom low ((a, v) :: rest) = true) (h' : Memory.wfFrom low ((b, w) :: rest') = true)
    (heq : Memory.read ((b, w) :: rest') b = Memory.read ((a, v) :: rest) b) : a ≤ b := by
  by_contra hlt
  obtain ⟨_, _, _, hrest⟩ := Memory.wfFrom_cons h
  refine Memory.read_first_ne_unlisted h' (heq.trans ?_)
  rw [Memory.read_cons_of_ne (by omega)]
  exact Memory.read_below hrest (by omega)

/-- Two memories that are canonical above a bound and read alike at every address are the same list. -/
theorem Memory.eq_of_read_eq {low : Nat} {m m' : Memory} (h : Memory.wfFrom low m = true) (h' : Memory.wfFrom low m' = true)
    (heq : ∀ k < 65536, Memory.read m k = Memory.read m' k) : m = m' := by
  induction m generalizing low m' with
  | nil =>
    cases m' with
    | nil => rfl
    | cons y rest' =>
      obtain ⟨_, hb, _, _⟩ := Memory.wfFrom_cons h'
      exact absurd (heq y.1 hb).symm (Memory.read_first_ne_unlisted h')
  | cons x rest ih =>
    obtain ⟨a, v⟩ := x
    obtain ⟨_, ha, _, hrest⟩ := Memory.wfFrom_cons h
    cases m' with
    | nil => exact absurd (heq a ha) (Memory.read_first_ne_unlisted h)
    | cons y rest' =>
      obtain ⟨b, w⟩ := y
      obtain ⟨_, hb, _, hrest'⟩ := Memory.wfFrom_cons h'
      obtain rfl : a = b :=
        le_antisymm (Memory.first_le_of_read_eq h h' (heq b hb).symm) (Memory.first_le_of_read_eq h' h (heq a ha))
      have hv := heq a ha
      rw [Memory.read_cons_self, Memory.read_cons_self] at hv
      have htail : ∀ k < 65536, Memory.read rest k = Memory.read rest' k := by
        intro k hk
        by_cases hka : k = a
        · rw [Memory.read_below hrest (by omega), Memory.read_below hrest' (by omega)]
        · simpa only [Memory.read_cons_of_ne hka] using heq k hk
      rw [hv, ih hrest hrest' htail]

/-- Settles O6: the addresses are the numbers below 65536, at which canonical memories are told apart (`Memory.eq_of_read_eq`). -/
theorem canonicalMemoriesAreExtensional : Obligations.CanonicalMemoriesAreExtensional := by
  intro m m' hm hm' heq
  refine Memory.eq_of_read_eq hm hm' fun k hk => ?_
  have hcell := heq (BitVec.ofNat 16 k)
  rwa [BitVec.toNat_ofNat, Nat.mod_eq_of_lt hk] at hcell

/-- The memory whose first `n` cells hold the bytes of `g`, written one after the other (its cells: `Memory.read_ofContents`). -/
def Memory.ofContents (g : Word → Byte) : Nat → Memory
  | 0     => []
  | n + 1 => Memory.write (Memory.ofContents g n) n (g (BitVec.ofNat 16 n))

theorem Memory.ofContents_wf (g : Word → Byte) {n : Nat} (hn : n ≤ 65536) : (Memory.ofContents g n).wf = true := by
  induction n with
  | zero => rfl
  | succ n ih => exact Memory.wfFrom_write (ih (by omega)) _ (Nat.zero_le n) hn

theorem Memory.read_ofContents (g : Word → Byte) {n k : Nat} (hn : n ≤ 65536) (hk : k < n) :
    Memory.read (Memory.ofContents g n) k = g (BitVec.ofNat 16 k) := by
  induction n with
  | zero => omega
  | succ n ih =>
    rw [Memory.ofContents, Memory.read_write (Memory.ofContents_wf g (by omega))]
    by_cases hkn : k = n
    · rw [if_pos hkn, hkn]
    · rw [if_neg hkn, ih (by omega) (by omega)]

/-- Settles O7: the memory with the 65536 bytes of the contents written is canonical and reads as they do. -/
theorem everyContentsHasACanonicalMemory : Obligations.EveryContentsHasACanonicalMemory := by
  refine fun g => ⟨Memory.ofContents g 65536, Memory.ofContents_wf g le_rfl, fun a => ?_⟩
  rw [Memory.read_ofContents g le_rfl a.isLt, BitVec.ofNat_toNat, BitVec.setWidth_eq]

end Sys2Proof.Machine
end

section
/-! The invariant: memory in canonical form and a truthful latch, at reset and after every step (60_exceptions.md sections 1 and 2). -/

namespace Sys2Proof.Machine

/-- An empty latch claims nothing. -/
theorem latchSound_of_fault_none {s : State} (h : s.fault = none) : s.latchSound = true := by
  simp only [State.latchSound, h]

/-- The record of a refused access is truthful where the policy refuses it (R312). -/
theorem latchSound_raise_refused {s : State} {a : Word} {kind : AccessKind}
    (h : (if kind = .write then admitsWrite s.cfg.memmap a else admitsRead s.cfg.memmap a) = false) :
    (s.raise (.invalidAddress a kind)).latchSound = true := by
  cases kind <;> simpa [State.latchSound] using h

/-- The record of the byte at PC is truthful where that byte has no handler (R311). -/
theorem latchSound_raise_unimplemented {s : State} (h : decodable s.cfg.admitTier2 (s.memRead8 s.pc) = false) :
    (s.raise (.unimplementedOpcode (s.memRead8 s.pc) s.pc)).latchSound = true := by
  simp [State.latchSound, h]

/-- What `execute` leaves keeps the invariant of a running state: a completed instruction keeps the latch empty, and a refused access
is one that the policy refuses (R312 to R314). -/
theorem execute_keeps_inv {n : Instruction} {s t : State} (hwf : s.mem.wf = true) (hrun : s.fault = none)
    (h : execute n s = .next t) : t.Inv := by
  rcases execute_cases n s with ⟨r, hdata, hx⟩ | ⟨_, hx⟩ <;> obtain rfl := Host.Outcome.next.inj (hx.symm.trans h)
  · refine ⟨hwf, ?_⟩
    rcases refusedData_some hdata with ⟨a, _, hrefused, rfl⟩ | ⟨a, _, hrefused, rfl⟩ <;>
      exact latchSound_raise_refused hrefused
  · exact ⟨complete_wf n hwf, latchSound_of_fault_none ((complete_fault n s).trans hrun)⟩

/-- Settles O50: a step latches a fetch that the policy refuses, or a byte with no handler at PC, or it runs `execute`, which latches a
refused data access or completes (`execute_keeps_inv`). -/
theorem stepKeepsTheInvariant : Obligations.StepKeepsTheInvariant := by
  rintro s t ⟨hwf, _⟩ hstep
  have hrun := fault_eq_none_of_step hstep
  rcases decodeNext_cases s with ⟨a, _, hrefused, hd⟩ | ⟨_, hd⟩
  · rw [step_of_error hrun hd] at hstep
    obtain rfl := Host.Outcome.next.inj hstep
    exact ⟨hwf, latchSound_raise_refused hrefused⟩
  · rw [step_of_ok hrun hd] at hstep
    rcases exec_cases _ s with ⟨n, _, hx, _, _⟩ | ⟨op, hi, hx⟩
    · exact execute_keeps_inv hwf hrun (hx.symm.trans hstep)
    · obtain ⟨rfl, hop⟩ := decodeBytes_eq_unimplemented hi
      obtain rfl := Host.Outcome.next.inj (hx.symm.trans hstep)
      exact ⟨hwf, latchSound_raise_unimplemented hop⟩

/-- Settles O2: reset takes the memory of `INIT` and leaves the latch empty; the named `INIT` lists no cell. -/
theorem resetMeetsInvariant : Obligations.ResetMeetsInvariant :=
  ⟨fun _ _ hwf => ⟨hwf, rfl⟩, ⟨rfl, rfl⟩⟩

end Sys2Proof.Machine
end

section
/-! The decoded instruction's length and cost, and what a step that completes does (30_encoding.md R91, R93, 40_instruction_protocol.md
R117, R118). -/

namespace Sys2Proof.Machine

/-- The instruction that the bytes at PC decode to: what `decodeNext` answers where the policy admits the fetch (`decodeNext_cases`). -/
abbrev State.instrAtPc (s : State) : Instr :=
  decodeBytes s.cfg.admitTier2 (s.memRead8 s.pc) (s.memRead8 (s.pc + 1)) (s.memRead8 (s.pc + 2))

theorem decodeNext_eq_ok {s : State} {i : Instr} (h : decodeNext s = .ok i) : i = s.instrAtPc := by
  rcases decodeNext_cases s with ⟨_, _, _, hd⟩ | ⟨_, hd⟩ <;> cases hd.symm.trans h
  rfl

/-- Every record's cost is the one R91 lists for the first byte of the instruction's encoding. -/
theorem record_cycles {i : Instr} {s : State} {n : Instruction} {op : Byte} (h : record i s = some n)
    (hop : (encode i).head? = some op) : n.cycles = costOf op := by
  cases i <;> cases h <;> cases hop <;> rfl

/-- A byte whose term has a record is decodable. -/
theorem decodable_of_record {k : Bool} {op b1 b2 : Byte} {s : State} {n : Instruction}
    (h : record (decodeBytes k op b1 b2) s = some n) : decodable k op = true := by
  by_contra hnot
  rw [decodeBytes_of_not_decodable (Bool.eq_false_of_not_eq_true hnot)] at h
  cases h

/-- The record of a byte's term has the length of the byte (R93). -/
theorem record_decodeBytes_length {k : Bool} {op b1 b2 : Byte} {s : State} {n : Instruction}
    (h : record (decodeBytes k op b1 b2) s = some n) : n.length = lengthOf op := by
  obtain ⟨hmin, hmax⟩ := instrLength_bounds k op
  rw [record_length h, encode_decodeBytes, ← instrLength_of_decodable (decodable_of_record h)]
  simp only [List.length_cons, List.length_take, List.length_nil]
  omega

/-- The record of a byte's term has the cost of the byte (R91). -/
theorem record_decodeBytes_cycles {k : Bool} {op b1 b2 : Byte} {s : State} {n : Instruction}
    (h : record (decodeBytes k op b1 b2) s = some n) : n.cycles = costOf op :=
  record_cycles h (by rw [encode_decodeBytes, List.head?_cons])

/-- A decodable byte's term has a record. -/
theorem exists_record_of_decodable {k : Bool} {op : Byte} (hop : decodable k op = true) (b1 b2 : Byte) (s : State) :
    ∃ n, record (decodeBytes k op b1 b2) s = some n := by
  cases hrec : record (decodeBytes k op b1 b2) s with
  | some n => exact ⟨n, rfl⟩
  | none =>
    obtain ⟨op', hi⟩ := record_none hrec
    rw [(decodeBytes_eq_unimplemented hi).2] at hop
    cases hop

/-- A step that leaves the latch empty ran all four phases of the instruction at PC (R131, R314). -/
theorem step_completes {s t : State} (hstep : step s = .next t) (hfault : t.fault = none) :
    ∃ n, record s.instrAtPc s = some n ∧ t = complete n s := by
  rcases step_completes_or_raises hstep with ⟨i, n, hd, hrec, _, ht⟩ | ⟨r, rfl⟩
  · exact ⟨n, decodeNext_eq_ok hd ▸ hrec, ht⟩
  · cases hfault

/-- Settles O45: a step that leaves the latch empty completed the record of the byte at PC (`step_completes`), whose length is the
byte's; one that latches is the fault entry. -/
theorem programCounterAdvancesByTheLength : Obligations.ProgramCounterAdvancesByTheLength := by
  refine fun s t hstep => ⟨fun hnone => ?completes, fun hsome => ?latches⟩
  case completes =>
    obtain ⟨n, hrec, rfl⟩ := step_completes hstep hnone
    rw [complete_pc n (record_keeps_pc hrec), record_decodeBytes_length hrec]
  case latches =>
    obtain ⟨r, hr⟩ := Option.ne_none_iff_exists'.mp hsome
    rw [eq_raise_of_step hstep hr, State.raise_pc]

/-- Settles O46: as for PC, with the cost of the byte and the bias that every completed instruction adds. -/
theorem clockAdvancesByTheCost : Obligations.ClockAdvancesByTheCost := by
  refine fun s t hstep => ⟨fun hnone => ?completes, fun hsome => ?latches⟩
  case completes =>
    obtain ⟨n, hrec, rfl⟩ := step_completes hstep hnone
    rw [complete_clk, record_decodeBytes_cycles hrec]
  case latches =>
    obtain ⟨r, hr⟩ := Option.ne_none_iff_exists'.mp hsome
    rw [eq_raise_of_step hstep hr, State.raise_clk]

/-- Settles O49: neither a completed instruction nor the fault entry writes the parameters. -/
theorem stepKeepsTheParameters : Obligations.StepKeepsTheParameters := by
  intro s t hstep
  rcases step_completes_or_raises hstep with ⟨_, n, _, _, _, rfl⟩ | ⟨r, rfl⟩
  · exact complete_cfg n s
  · exact State.raise_cfg r s

end Sys2Proof.Machine
end

section
/-! Steps and runs under FLAT, which admits every access (20_memory.md R51): a step completes, or it meets a byte with no handler. -/

namespace Sys2Proof.Machine

/-- Under FLAT an instruction that has a record completes. -/
theorem exec_of_flat {i : Instr} {s : State} {n : Instruction} (hflat : s.cfg.memmap = .flat) (hrec : record i s = some n) :
    exec i s = .next (complete n s) := by
  rw [exec_eq_execute hrec]
  exact execute_of_admitted (fun a _ => by rw [hflat, admitsRead_flat]) (fun a _ => by rw [hflat, admitsWrite_flat])

/-- Settles O14: the byte's term has a record with its length and cost
(`record_decodeBytes_length`, `record_decodeBytes_cycles`), which completes under FLAT. -/
theorem lengthAndCostFollowFromTheOpcode : Obligations.LengthAndCostFollowFromTheOpcode := by
  intro k op b1 b2 s hop hflat
  obtain ⟨n, hrec⟩ := exists_record_of_decodable hop b1 b2 s
  refine ⟨instrLength_of_decodable hop, complete n s, exec_of_flat hflat hrec, complete_fault n s, ?pc, ?clk⟩
  case pc => rw [complete_pc n (record_keeps_pc hrec), record_decodeBytes_length hrec]
  case clk => rw [complete_clk, record_decodeBytes_cycles hrec]

/-- Under FLAT the fetch is admitted, and so `decodeNext` answers the instruction at PC. -/
theorem decodeNext_of_flat {s : State} (hflat : s.cfg.memmap = .flat) : decodeNext s = .ok s.instrAtPc := by
  rcases decodeNext_cases s with ⟨a, _, hrefused, _⟩ | ⟨_, hd⟩
  · rw [hflat, admitsRead_flat] at hrefused
    cases hrefused
  · exact hd

theorem step_of_flat {s : State} (hrun : s.Running) (hflat : s.cfg.memmap = .flat) : step s = exec s.instrAtPc s :=
  step_of_ok hrun (decodeNext_of_flat hflat)

/-- Under FLAT a running core that fetches a byte with no handler latches it. -/
theorem step_of_flat_not_decodable {s : State} (hrun : s.Running) (hflat : s.cfg.memmap = .flat)
    (hop : decodable s.cfg.admitTier2 (s.memRead8 s.pc) = false) :
    step s = .next (s.raise (.unimplementedOpcode (s.memRead8 s.pc) s.pc)) :=
  step_of_not_decodable hrun (canRead_of_flat hflat _) hop

/-- Under FLAT a running core that fetches a decodable byte completes its instruction. -/
theorem step_of_flat_decodable {s : State} (hrun : s.Running) (hflat : s.cfg.memmap = .flat)
    (hop : decodable s.cfg.admitTier2 (s.memRead8 s.pc) = true) :
    ∃ n, record s.instrAtPc s = some n ∧ step s = .next (complete n s) := by
  obtain ⟨n, hrec⟩ := exists_record_of_decodable hop (s.memRead8 (s.pc + 1)) (s.memRead8 (s.pc + 2)) s
  exact ⟨n, hrec, (step_of_flat hrun hflat).trans (exec_of_flat hflat hrec)⟩

/-- Settles O44: the byte at PC has no handler and is latched, or it has one and the completed instruction leaves the latch empty. -/
theorem flatMemoryFaultsOnlyOnUnimplementedBytes : Obligations.FlatMemoryFaultsOnlyOnUnimplementedBytes := by
  intro s t hflat hstep
  have hrun := fault_eq_none_of_step hstep
  cases hop : decodable s.cfg.admitTier2 (s.memRead8 s.pc) with
  | false =>
    cases (step_of_flat_not_decodable hrun hflat hop).symm.trans hstep
    simp [eq_comm]
  | true =>
    obtain ⟨n, _, hnext⟩ := step_of_flat_decodable hrun hflat hop
    cases hnext.symm.trans hstep
    simp [hrun]

/-- A step and a safe run after it are a safe run. -/
theorem safeRun_succ {k : Nat} {s u t : State} (hstep : step s = .next u) (hrun : SafeRun k u t) : SafeRun (k + 1) s t :=
  ⟨(run_of_next k hstep).trans hrun.1, hrun.2⟩

/-- Settles O54: by induction on the length asked for. At a byte with no handler the run ends where it stands; at any other the step
completes (`step_of_flat_decodable`), and the run goes on from a state that is running and under FLAT again. -/
theorem flatRunGoesOnOrMeetsAnUnimplementedByte : Obligations.FlatRunGoesOnOrMeetsAnUnimplementedByte := by
  intro k
  induction k with
  | zero => exact fun s hrun _ => .inl ⟨s, rfl, hrun⟩
  | succ k ih =>
    intro s hrun hflat
    cases hop : decodable s.cfg.admitTier2 (s.memRead8 s.pc) with
    | false =>
      exact .inr ⟨0, s, Nat.succ_pos k, ⟨rfl, hrun⟩, hop, step_of_flat_not_decodable hrun hflat hop⟩
    | true =>
      obtain ⟨n, _, hnext⟩ := step_of_flat_decodable hrun hflat hop
      have hrun' : (complete n s).Running := (complete_fault n s).trans hrun
      have hflat' : (complete n s).cfg.memmap = .flat := by rw [complete_cfg, hflat]
      rcases ih (complete n s) hrun' hflat' with ⟨t, hsafe⟩ | ⟨j, u, hj, hsafe, hend⟩
      · exact .inl ⟨t, safeRun_succ hnext hsafe⟩
      · exact .inr ⟨j + 1, u, Nat.succ_lt_succ hj, safeRun_succ hnext hsafe, hend⟩

/-- Under FLAT a byte read after a completed instruction: the byte it stored there, and the byte of before otherwise (R51, R53). -/
theorem memRead8_complete {i : Instr} {s : State} {n : Instruction} (hflat : s.cfg.memmap = .flat) (hwf : s.mem.wf = true)
    (hrec : record i s = some n) (a : Word) : (complete n s).memRead8 a = byteAfter i s a := by
  have hflat' : (complete n s).cfg.memmap = .flat := by rw [complete_cfg, hflat]
  rw [State.memRead8_of_flat hflat', State.cell_congr (complete_mem n s), cell_perform hwf hrec]

/-- Settles O51: the step completes the instruction at PC; afterwards every read is `byteAfter` (`memRead8_complete`), and under FLAT
the next decode is of the three reads from the new PC up (`decodeNext_of_flat`). -/
theorem nextDecodeSeesTheStoredOpcode : Obligations.NextDecodeSeesTheStoredOpcode := by
  intro s hrun hwf hflat hop i pc'
  obtain ⟨n, hrec, hnext⟩ := step_of_flat_decodable hrun hflat hop
  have hpc : (complete n s).pc = pc' := by rw [complete_pc n (record_keeps_pc hrec), record_decodeBytes_length hrec]
  have hread := memRead8_complete hflat hwf hrec
  refine ⟨complete n s, hnext, exec_of_flat hflat hrec, (complete_fault n s).trans hrun, hpc, hread, ?decodes⟩
  case decodes =>
    rw [decodeNext_of_flat (by rw [complete_cfg, hflat]), State.instrAtPc, hpc, hread, hread, hread, complete_cfg]

/-- Under FLAT three bytes placed from an address up are read back (R51, R352). -/
theorem memRead8_storeBytes {s : State} (hflat : s.cfg.memmap = .flat) (hwf : s.mem.wf = true) (a : Word) (x y z : Byte) :
    (s.storeBytes a [x, y, z]).memRead8 a = x ∧ (s.storeBytes a [x, y, z]).memRead8 (a + 1) = y ∧
    (s.storeBytes a [x, y, z]).memRead8 (a + 2) = z := by
  have hread (b : Word) : (s.storeBytes a [x, y, z]).memRead8 b =
      if b = a + 1 + 1 then z else if b = a + 1 then y else if b = a then x else s.memRead8 b := by
    have hwf1 := State.memWrite8_wf hwf a x
    have hwf2 := State.memWrite8_wf hwf1 (a + 1) y
    have hstored : s.storeBytes a [x, y, z] = ((s.memWrite8 a x).memWrite8 (a + 1) y).memWrite8 (a + 1 + 1) z := rfl
    rw [hstored, State.memRead8_memWrite8 (by exact hflat) hwf2, State.memRead8_memWrite8 (by exact hflat) hwf1,
      State.memRead8_memWrite8 hflat hwf]
  have h2 : a + 2 = a + 1 + 1 := by bv_omega
  have h20 : a ≠ a + 1 + 1 := by bv_omega
  refine ⟨?_, ?_, ?_⟩
  · rw [hread, if_neg h20, if_neg (ne_add_one a), if_pos rfl]
  · rw [hread, if_neg (ne_add_one _), if_pos rfl]
  · rw [hread, if_pos h2]

/-- Under FLAT three bytes placed at PC are the ones the instruction at PC is decoded from. -/
theorem instrAtPc_storeBytes {s : State} (hflat : s.cfg.memmap = .flat) (hwf : s.mem.wf = true) (x y z : Byte) :
    (s.storeBytes s.pc [x, y, z]).instrAtPc = decodeBytes s.cfg.admitTier2 x y z := by
  obtain ⟨hx, hy, hz⟩ := memRead8_storeBytes hflat hwf s.pc x y z
  have hpc : (s.storeBytes s.pc [x, y, z]).pc = s.pc := rfl
  have hcfg : (s.storeBytes s.pc [x, y, z]).cfg = s.cfg := rfl
  rw [State.instrAtPc, hpc, hcfg, hx, hy, hz]

/-- Settles O52: placing a word stores its three bytes at PC and changes nothing else, and the instruction at PC is then the one that
the word decodes to (`instrAtPc_storeBytes`, `decodeTableWord_eq`). -/
theorem placedWordRunsNext : Obligations.PlacedWordRunsNext := by
  intro s nbits w i hrun hwf hcfg hdec
  have hflat : s.cfg.memmap = .flat := by rw [hcfg]; rfl
  have hrun' : (s.withFetchWord nbits w).Running := hrun
  have hflat' : (s.withFetchWord nbits w).cfg.memmap = .flat := hflat
  rw [decodeTableWord_eq, ← hcfg] at hdec
  have hinstr : (s.withFetchWord nbits w).instrAtPc = i :=
    (instrAtPc_storeBytes hflat hwf _ _ _).trans (Option.some.inj hdec)
  rw [step_of_flat hrun' hflat', hinstr]

end Sys2Proof.Machine
end

section
/-! What a policy other than FLAT returns for a read (00_scope.md R8, log 5). -/

namespace Sys2Proof.Machine

/-- Windows that do not cover the address have no say in a read of it. -/
theorem windowsRead_append {before : List Window} {a : Word} (hbefore : ∀ x ∈ before, windowCovers x a = false)
    (ws : List Window) (m : Memory) : windowsRead (before ++ ws) a m = windowsRead ws a m := by
  induction before with
  | nil => rfl
  | cons x before ih =>
    obtain ⟨hx, hrest⟩ := List.forall_mem_cons.mp hbefore
    rw [List.cons_append, windowsRead, if_neg (by rw [hx]; exact Bool.false_ne_true), ih hrest]

/-- Settles O56: the windows before the first that covers the address are passed over (`windowsRead_append`), and that one's value is
returned; where none covers it, `State.memRead8_of_uncovered`. -/
theorem policyReadsReturnWhatTheFirstWindowSays : Obligations.PolicyReadsReturnWhatTheFirstWindowSays := by
  refine ⟨fun s before after w a hpolicy hbefore hcovers => ?covered, fun s ws a hpolicy => State.memRead8_of_uncovered hpolicy⟩
  case covered =>
    have hread : s.memRead8 a = windowsRead (w :: after) a s.mem := by
      rw [← windowsRead_append hbefore, State.memRead8, hpolicy, readsAs]
    rw [windowsRead, if_pos hcovers] at hread
    exact ⟨fun hw => by rw [hread, hw]; rfl, fun v hw => by rw [hread, hw], fun base hw => by rw [hread, hw]; rfl,
      fun source hw => by rw [hread, hw]⟩

end Sys2Proof.Machine
end

section
/-! Which accesses an instruction makes, in the words the statements use (20_memory.md R62, 60_exceptions.md R318), and which of them a
failing step latches (R315). -/

namespace Sys2Proof.Machine

/-- The cells an instruction's effect reads are the byte or the word the statements say it loads. -/
theorem record_readCells {i : Instr} {s : State} {n : Instruction} (h : record i s = some n) :
    n.effect.readCells s = accessCells (byteLoadedFrom i s) (wordLoadedFrom i s) := by
  cases i <;> cases h <;> rfl

/-- The cells that hold the bytes an instruction stores are the byte or the word it stores to, low byte first. -/
theorem bytesStored_map_fst (i : Instr) (s : State) :
    (bytesStored i s).map Prod.fst = accessCells (byteStoredTo i s) (wordStoredTo i s) := by
  have hpush : accessCells none (some (s.sp - 2)) = [s.sp - 2, s.sp - 1] := by
    rw [← sub_two_add_one]
    rfl
  cases i with
  | pushBc | pushDe | pushHl | pushAf => exact hpush.symm
  | _ => rfl

/-- The cells an instruction's effect writes are the byte or the word it stores to. -/
theorem record_writeCells {i : Instr} {s : State} {n : Instruction} (h : record i s = some n) :
    n.effect.writeCells s = accessCells (byteStoredTo i s) (wordStoredTo i s) := by
  rw [← bytesStored_map_fst]
  cases i <;> cases h <;> rfl

/-- A fetch whose first refused cell is `a` is latched as a refusal of `a` (R315 cases 1 and 3). -/
theorem step_of_fetch_refused {s : State} {a : Word} (hrun : s.Running)
    (h : (fetchCells s).find? (fun x => !admitsRead s.cfg.memmap x) = some a) :
    step s = .next (s.raise (.invalidAddress a .fetch)) := by
  refine step_of_error hrun ?_
  rw [decodeNext, firstRefused, h]

/-- A data read whose first refused cell is `a` is latched as a refusal of `a` (R315 case 4). -/
theorem exec_of_read_refused {i : Instr} {s : State} {a : Word} {n : Instruction} (hrec : record i s = some n)
    (h : (accessCells (byteLoadedFrom i s) (wordLoadedFrom i s)).find? (fun x => !admitsRead s.cfg.memmap x) = some a) :
    exec i s = .next (s.raise (.invalidAddress a .read)) := by
  rw [← record_readCells hrec] at h
  rw [exec_eq_execute hrec, execute, refusedData, firstRefused, h]

/-- A data write whose first refused cell is `a` is latched as a refusal of `a`, once the reads are admitted (R315 case 5). -/
theorem exec_of_write_refused {i : Instr} {s : State} {a : Word} {n : Instruction} (hrec : record i s = some n)
    (hread : s.CanRead (accessCells (byteLoadedFrom i s) (wordLoadedFrom i s)))
    (h : (accessCells (byteStoredTo i s) (wordStoredTo i s)).find? (fun x => !admitsWrite s.cfg.memmap x) = some a) :
    exec i s = .next (s.raise (.invalidAddress a .write)) := by
  rw [← record_readCells hrec, canRead_iff] at hread
  rw [← record_writeCells hrec] at h
  rw [exec_eq_execute hrec, execute, refusedData, firstRefused_none.mpr hread, firstRefused, h]

/-- The opcode byte's cell is the first one fetched, whatever it holds (R61). -/
theorem fetchCells_eq_cons (s : State) : ∃ cells, fetchCells s = s.pc :: cells := by
  cases hop : decodable s.cfg.admitTier2 (s.memRead8 s.pc) with
  | false => exact ⟨_, fetchCells_of_not_decodable hop⟩
  | true => exact ⟨_, fetchCells_of_decodable hop⟩

/-- Settles O43: the five cases are the order in which the cells are fetched (`fetchCells_of_decodable`) and then read and written
(`record_readCells`, `record_writeCells`): the first refused one is the record. -/
theorem firstFailingAccessIsLatched : Obligations.FirstFailingAccessIsLatched := by
  refine fun s a hrun => ⟨fun hpc => ?opcode, fun hpc hop => step_of_not_decodable hrun hpc hop, fun hpc hop himm => ?immediate,
    fun hpc hop himm hread => ?read, fun hpc hop himm hread hwrite => ?write⟩
  case opcode =>
    obtain ⟨cells, hcells⟩ := fetchCells_eq_cons s
    refine step_of_fetch_refused hrun ?_
    rw [hcells, List.find?_cons_of_pos]
    simpa using hpc
  case immediate =>
    refine step_of_fetch_refused hrun ?_
    rw [fetchCells_of_decodable hop, List.find?_cons_of_neg, himm]
    simpa using hpc
  case read =>
    obtain ⟨n, hrec⟩ := exists_record_of_decodable hop (s.memRead8 (s.pc + 1)) (s.memRead8 (s.pc + 2)) s
    rw [step_of_decodable hrun hpc himm hop, exec_of_read_refused hrec hread]
  case write =>
    obtain ⟨n, hrec⟩ := exists_record_of_decodable hop (s.memRead8 (s.pc + 1)) (s.memRead8 (s.pc + 2)) s
    rw [step_of_decodable hrun hpc himm hop, exec_of_write_refused hrec hread hwrite]

end Sys2Proof.Machine
end

section
/-! Frames: what an instruction leaves unchanged (41 to 44, 60_exceptions.md R313). An instruction with a record completes or latches
one refused access, so each frame is a fact about the completed state. -/

namespace Sys2Proof.Machine

/-- An instruction that has a record completes, or its whole effect is the latch of a refused access (R312, R313). -/
theorem exec_completes_or_refused {i : Instr} {s t : State} {n : Instruction} (hrec : record i s = some n)
    (h : exec i s = .next t) : t = complete n s ∨ ∃ a k, t = s.raise (.invalidAddress a k) := by
  rw [exec_eq_execute hrec] at h
  rcases execute_cases n s with ⟨r, hdata, hx⟩ | ⟨_, hx⟩ <;> cases hx.symm.trans h
  · rcases refusedData_some hdata with ⟨a, _, _, rfl⟩ | ⟨a, _, _, rfl⟩ <;> exact .inr ⟨a, _, rfl⟩
  · exact .inl rfl

/-- Such an instruction keeps the latch, or its whole effect is the latch of a refused access. -/
theorem exec_fault_eq_or_refused {i : Instr} {s t : State} {n : Instruction} (hrec : record i s = some n)
    (h : exec i s = .next t) : t.fault = s.fault ∨ ∃ a k, t = s.raise (.invalidAddress a k) := by
  rcases exec_completes_or_refused hrec h with rfl | hrefused
  · exact .inl (complete_fault n s)
  · exact .inr hrefused

/-- What the fault entry and the completed instruction have in common holds of whatever an instruction leaves. -/
theorem exec_induction {P : State → Prop} {i : Instr} {s t : State} (h : exec i s = .next t) (hraise : ∀ r, P (s.raise r))
    (hdone : ∀ n, record i s = some n → P (complete n s)) : P t := by
  rcases exec_next_cases h with ⟨n, hrec, _, rfl⟩ | ⟨r, rfl⟩
  · exact hdone n hrec
  · exact hraise r

theorem exec_cfg {i : Instr} {s t : State} (h : exec i s = .next t) : t.cfg = s.cfg :=
  exec_induction (P := fun t => t.cfg = s.cfg) h (fun _ => rfl) (fun n _ => complete_cfg n s)

/-- A cell that an instruction does not store to reads as before (R53, R55, R313). -/
theorem exec_cell {i : Instr} {s t : State} (hwf : s.mem.wf = true) (h : exec i s = .next t) {a : Word}
    (ha : a ∉ accessCells (byteStoredTo i s) (wordStoredTo i s)) : t.cell a = s.cell a := by
  refine exec_induction (P := fun t => t.cell a = s.cell a) h (fun r => State.raise_cell r s a) fun n hrec => ?_
  rw [← bytesStored_map_fst] at ha
  have hnone : (bytesStored i s).find? (fun x => x.1 == a) = none :=
    List.find?_eq_none.mpr fun x hx hxa => ha (eq_of_beq hxa ▸ List.mem_map_of_mem hx)
  rw [State.cell_congr (complete_mem n s), cell_perform hwf hrec, byteAfter, hnone]

/-- Settles O36: the cells an instruction stores to are the byte's cell and the word's two (`exec_cell`). -/
theorem memoryChangesOnlyWhereStored : Obligations.MemoryChangesOnlyWhereStored := by
  intro i s t a hwf h hbyte hlow hhigh
  refine exec_cell hwf h fun hmem => ?_
  rcases List.mem_append.mp hmem with hb | hw
  · exact hbyte (Option.mem_toList.mp hb)
  · cases hword : wordStoredTo i s with
    | none => simp [hword] at hw
    | some w =>
      rw [hword] at hw hlow hhigh
      rcases List.mem_pair.mp hw with rfl | rfl
      · exact hlow rfl
      · exact hhigh (by rw [BitVec.add_sub_cancel])

/-- The instructions that write SP are PUSH, POP, LD SP,HL and LD SP,d16; the effect of any other leaves it (R25). -/
theorem record_sp {i : Instr} {s : State} {n : Instruction} (h : record i s = some n) : (perform n.effect s).sp = s.sp ∨
    (∃ p, i = .push p) ∨ (∃ p, i = .pop p) ∨ i = .ldSpHl ∨ ∃ w, i = .ldSpD16 w := by
  cases i with
  | pushBc => exact .inr (.inl ⟨.bc, rfl⟩)
  | pushDe => exact .inr (.inl ⟨.de, rfl⟩)
  | pushHl => exact .inr (.inl ⟨.hl, rfl⟩)
  | pushAf => exact .inr (.inl ⟨.af, rfl⟩)
  | popBc => exact .inr (.inr (.inl ⟨.bc, rfl⟩))
  | popDe => exact .inr (.inr (.inl ⟨.de, rfl⟩))
  | popHl => exact .inr (.inr (.inl ⟨.hl, rfl⟩))
  | popAf => exact .inr (.inr (.inl ⟨.af, rfl⟩))
  | ldSpHl => exact .inr (.inr (.inr (.inl rfl)))
  | ldSpD16 w => exact .inr (.inr (.inr (.inr ⟨w, rfl⟩)))
  | unimplemented _ => cases h
  | _ => exact .inl (by cases h; rfl)

/-- Settles O37: the fault entry keeps SP, and so does a completed instruction other than the four (`record_sp`). -/
theorem stackPointerWriters : Obligations.StackPointerWriters := by
  intro i s t h hsp
  rcases exec_next_cases h with ⟨n, hrec, _, rfl⟩ | ⟨r, rfl⟩
  · exact (record_sp hrec).resolve_left fun hkeeps => hsp ((complete_sp n s).trans hkeeps)
  · exact absurd (State.raise_sp r s) hsp

/-- What a load of one byte register with no post-effect leaves unchanged, whatever its source (R120). -/
theorem loadByte_reg_frame {i : Instr} {s t : State} {src : Loc8} {dst : Reg8} {cycles length : Nat}
    (hrec : record i s = some ⟨.loadByte src (.reg dst), cycles, length, []⟩) (h : exec i s = .next t) :
    (∀ r, r ≠ dst → t.reg8 r = s.reg8 r) ∧ t.f = s.f ∧ t.sp = s.sp ∧ t.cfg = s.cfg ∧
    (t.fault = s.fault ∨ ∃ a k, t = s.raise (.invalidAddress a k)) ∧ ∀ a, t.cell a = s.cell a := by
  rcases exec_completes_or_refused hrec h with rfl | ⟨a, k, rfl⟩
  · refine ⟨fun r hr => ?_, ?_, ?_, complete_cfg _ s, .inl (complete_fault _ s), fun a => ?_⟩
    · simp [complete, runPosts, perform, write8, State.reg8_setReg8, hr]
    · simp [perform, write8]
    · simp [perform, write8]
    · simp [complete, runPosts, perform, write8]
  · exact ⟨fun r _ => by rw [State.raise_reg8], rfl, rfl, rfl, .inr ⟨a, k, rfl⟩, fun _ => State.raise_cell _ _ _⟩

/-- Settles O32: each form's effect is a load of the one byte register, from a register, an immediate or a cell
(`loadByte_reg_frame`). -/
theorem byteRegisterLoadFrame : Obligations.ByteRegisterLoadFrame := by
  rintro i dst s t (⟨r, rfl⟩ | rfl | ⟨v, rfl⟩ | ⟨rfl, rfl | rfl | ⟨v, rfl⟩ | rfl | ⟨w, rfl⟩⟩) h
  · exact loadByte_reg_frame (record_regMove dst r s) h
  · exact loadByte_reg_frame (record_loadAtHl dst s) h
  · exact loadByte_reg_frame (record_loadImm8 dst v s) h
  all_goals exact loadByte_reg_frame rfl h

/-- An instruction that stores a byte stores to that cell alone. -/
theorem accessCells_of_byteStoredTo {i : Instr} {s : State} {w : Word} (h : byteStoredTo i s = some w) :
    accessCells (byteStoredTo i s) (wordStoredTo i s) = [w] := by
  cases i <;> cases h <;> rfl

/-- An instruction that stores a word stores to its two cells alone. -/
theorem accessCells_of_wordStoredTo {i : Instr} {s : State} {w : Word} (h : wordStoredTo i s = some w) :
    accessCells (byteStoredTo i s) (wordStoredTo i s) = [w, w + 1] := by
  cases i <;> cases h <;> rfl

/-- What a store with no post-effect leaves unchanged: its effect sets memory, and SP if it is a PUSH (R120 to R122). -/
theorem store_frame {i : Instr} {s t : State} {n : Instruction} {top : Word} {m : Memory} (hrec : record i s = some n)
    (hpost : n.post = []) (heffect : perform n.effect s = { s with sp := top, mem := m })
    (htop : (∀ p, i ≠ .push p) → top = s.sp) (hstores : byteStoredTo i s ≠ none ∨ wordStoredTo i s ≠ none)
    (hwf : s.mem.wf = true) (h : exec i s = .next t) :
    (∀ r, t.reg8 r = s.reg8 r) ∧ t.f = s.f ∧ ((∀ p, i ≠ .push p) → t.sp = s.sp) ∧ t.cfg = s.cfg ∧
    (t.fault = s.fault ∨ ∃ a k, t = s.raise (.invalidAddress a k)) ∧
    (∀ w, byteStoredTo i s = some w → ∀ a, a ≠ w → t.cell a = s.cell a) ∧
    (∀ w, wordStoredTo i s = some w → ∀ a, a ≠ w → a ≠ w + 1 → t.cell a = s.cell a) ∧
    (byteStoredTo i s ≠ none ∨ wordStoredTo i s ≠ none) := by
  have hdone : complete n s = s.finished { s with sp := top, mem := m } n.length n.cycles := by
    rw [complete_eq_finished (record_keeps_pc hrec), hpost, heffect, runPosts]
  refine ⟨?registers, ?f, fun hpush => ?sp, exec_cfg h, exec_fault_eq_or_refused hrec h, fun w hbyte a ha => ?byte,
    fun w hword a hlow hhigh => ?word, hstores⟩
  case byte => exact exec_cell hwf h (accessCells_of_byteStoredTo hbyte ▸ fun hmem => ha (List.mem_singleton.mp hmem))
  case word => exact exec_cell hwf h (accessCells_of_wordStoredTo hword ▸ fun hmem => (List.mem_pair.mp hmem).elim hlow hhigh)
  all_goals obtain rfl | ⟨a, k, rfl⟩ := exec_completes_or_refused hrec h
  case registers.inl => exact fun r => by rw [hdone]; cases r <;> rfl
  case registers.inr => exact fun r => by rw [State.raise_reg8]
  case f.inl => rw [hdone]; rfl
  case f.inr => rfl
  case sp.inl => rw [hdone]; exact htop hpush
  case sp.inr => rfl

/-- Settles O33: each form's effect is one store (`store_frame`), of a byte, of SP, or of a pair at the new top of the stack. -/
theorem storeFrame : Obligations.StoreFrame := by
  rintro i s t hwf (⟨r, rfl⟩ | ⟨v, rfl⟩ | rfl | rfl | ⟨v, rfl⟩ | rfl | ⟨w, rfl⟩ | ⟨w, rfl⟩ | ⟨p, rfl⟩) h
  · exact store_frame (record_storeAtHl r s) rfl rfl (fun _ => rfl) (.inl (by cases r <;> nofun)) hwf h
  · exact store_frame rfl rfl rfl (fun _ => rfl) (.inl nofun) hwf h
  · exact store_frame rfl rfl rfl (fun _ => rfl) (.inl nofun) hwf h
  · exact store_frame rfl rfl rfl (fun _ => rfl) (.inl nofun) hwf h
  · exact store_frame rfl rfl rfl (fun _ => rfl) (.inl nofun) hwf h
  · exact store_frame rfl rfl rfl (fun _ => rfl) (.inl nofun) hwf h
  · exact store_frame rfl rfl rfl (fun _ => rfl) (.inl nofun) hwf h
  · exact store_frame rfl rfl rfl (fun _ => rfl) (.inr nofun) hwf h
  · exact store_frame (record_push p s) rfl rfl (fun hpush => absurd rfl (hpush p)) (.inr (by cases p <;> nofun)) hwf h

/-- What a byte load with post-effects leaves unchanged, where its destination is A or a cell: the post-effects move H and L alone
(R116, R120). -/
theorem loadByte_post_frame {i : Instr} {s t : State} {src dst : Loc8} {cycles length : Nat} {post : List PostEffect}
    (hrec : record i s = some ⟨.loadByte src dst, cycles, length, post⟩) (hdst : dst = .reg .a ∨ ∃ a, dst = .mem a)
    (h : exec i s = .next t) :
    t.f = s.f ∧ t.b = s.b ∧ t.c = s.c ∧ t.d = s.d ∧ t.e = s.e ∧ t.sp = s.sp ∧ (dst ≠ .reg .a → t.a = s.a) := by
  rcases exec_completes_or_refused hrec h with rfl | ⟨a, k, rfl⟩
  · rcases hdst with rfl | ⟨a, rfl⟩ <;> simp [perform, write8]
  · exact ⟨rfl, rfl, rfl, rfl, rfl, rfl, fun _ => rfl⟩

/-- Settles O34: the destination is A or the cell at HL, and the post-effect moves HL (`loadByte_post_frame`); the two stores write
that cell, the two loads none (`exec_cell`). -/
theorem autoIncrementFrame : Obligations.AutoIncrementFrame := by
  intro i s t hwf hform h
  obtain ⟨src, dst, post, hrec, hdst⟩ : ∃ src dst post, record i s = some ⟨.loadByte src dst, 8, 1, post⟩ ∧
      (dst = .reg .a ∨ ∃ a, dst = .mem a) := by
    rcases hform with rfl | rfl | rfl | rfl
    · exact ⟨_, _, _, rfl, .inr ⟨_, rfl⟩⟩
    · exact ⟨_, _, _, rfl, .inr ⟨_, rfl⟩⟩
    · exact ⟨_, _, _, rfl, .inl rfl⟩
    · exact ⟨_, _, _, rfl, .inl rfl⟩
  obtain ⟨hf, hb, hc, hd, he, hsp, ha⟩ := loadByte_post_frame hrec hdst h
  refine ⟨hf, hb, hc, hd, he, hsp, exec_cfg h, exec_fault_eq_or_refused hrec h, ?stores, ?loads⟩
  case stores =>
    rintro (rfl | rfl) <;> refine ⟨ha (by cases hrec; nofun), fun a hne => exec_cell hwf h ?_⟩ <;>
      exact fun hmem => hne (List.mem_singleton.mp hmem)
  case loads => rintro (rfl | rfl) a <;> exact exec_cell hwf h List.not_mem_nil

/-- An effect that writes no cell leaves memory as it is (R62, R318). -/
theorem perform_mem {e : Effect} {s : State} (h : e.writeCells s = []) : (perform e s).mem = s.mem := by
  cases e with
  | loadByte src dst => cases dst <;> simp_all [Effect.writeCells, Loc8.cells, perform, write8]
  | loadWord src dst => cases dst <;> simp_all [Effect.writeCells, Loc16.cells, perform, write16]
  | push src => cases h
  | pop dst => cases dst <;> simp_all [Effect.writeCells, Loc16.cells, perform, write16]

/-- An instruction that stores to no cell leaves every cell, whether or not memory is canonical. -/
theorem exec_cell_of_no_store {i : Instr} {s t : State} (h : exec i s = .next t)
    (hstores : accessCells (byteStoredTo i s) (wordStoredTo i s) = []) (a : Word) : t.cell a = s.cell a := by
  refine exec_induction (P := fun t => t.cell a = s.cell a) h (fun r => State.raise_cell r s a) fun n hrec => ?_
  exact State.cell_congr ((complete_mem n s).trans (perform_mem (by rw [record_writeCells hrec, hstores]))) a

/-- `t` is `s` but for the pair, SP, PC, `clk` and the latch. -/
def State.SameButPair (p : Pair) (s t : State) : Prop :=
  ∃ w sp pc clk fault, t = { s.setPair p w with sp := sp, pc := pc, clk := clk, fault := fault }

theorem State.setPair_pair (p : Pair) (s : State) : s.setPair p (s.pair p) = s := by
  cases p <;> simp [State.setPair, State.pair, State.setReg8, State.setFByte, State.fByte]

/-- A load of a pair, from a word or from the stack, changes the pair, SP, PC, `clk` and the latch at most (R121, R123, R313). -/
theorem exec_sameButPair {i : Instr} {s t : State} {n : Instruction} {p : Pair} {w top : Word} (hrec : record i s = some n)
    (hpost : n.post = []) (heffect : perform n.effect s = (s.setPair p w).setSp top) (h : exec i s = .next t) :
    State.SameButPair p s t := by
  rcases exec_completes_or_refused hrec h with rfl | ⟨a, k, rfl⟩
  · rw [complete_eq_finished (record_keeps_pc hrec), hpost, heffect, runPosts]
    exact ⟨w, top, s.pc + BitVec.ofNat 16 n.length, s.clk + n.cycles + s.cfg.tickBias.val, s.fault, by cases p <;> rfl⟩
  · refine ⟨s.pair p, s.sp, s.pc, s.clk, some (.invalidAddress a k), ?_⟩
    rw [State.setPair_pair]
    rfl

/-- Settles O35: a load of a pair changes no other byte register (`exec_sameButPair`), the loads of SP change none at all, and the one
word that POP accesses is read (`exec_cell_of_no_store`). -/
theorem wordRegisterLoadFrame : Obligations.WordRegisterLoadFrame := by
  intro i s t h
  refine ⟨fun hform => ?bc, fun hform => ?de, fun hform => ?hl, fun hform => ?af, fun hform => ?setsSp, fun hform => ?keepsSp,
    fun hform => ?others⟩
  case bc =>
    obtain ⟨_, _, _, _, _, rfl⟩ : s.SameButPair .bc t := by
      rcases hform with ⟨w, rfl⟩ | rfl <;> exact exec_sameButPair rfl rfl rfl h
    exact ⟨rfl, rfl, rfl, rfl, rfl, rfl⟩
  case de =>
    obtain ⟨_, _, _, _, _, rfl⟩ : s.SameButPair .de t := by
      rcases hform with ⟨w, rfl⟩ | rfl <;> exact exec_sameButPair rfl rfl rfl h
    exact ⟨rfl, rfl, rfl, rfl, rfl, rfl⟩
  case hl =>
    obtain ⟨_, _, _, _, _, rfl⟩ : s.SameButPair .hl t := by
      rcases hform with ⟨w, rfl⟩ | rfl | ⟨v, rfl⟩ <;> exact exec_sameButPair rfl rfl rfl h
    exact ⟨rfl, rfl, rfl, rfl, rfl, rfl⟩
  case af =>
    subst hform
    obtain ⟨_, _, _, _, _, rfl⟩ : s.SameButPair .af t := exec_sameButPair rfl rfl rfl h
    exact ⟨rfl, rfl, rfl, rfl, rfl, rfl⟩
  case setsSp =>
    refine exec_induction (P := fun t => (∀ r, t.reg8 r = s.reg8 r) ∧ t.f = s.f) h
      (fun r => ⟨fun q => by rw [State.raise_reg8], rfl⟩) fun n hrec => ?_
    rcases hform with ⟨w, rfl⟩ | rfl <;> cases hrec <;> exact ⟨fun r => by cases r <;> rfl, rfl⟩
  case keepsSp =>
    refine exec_induction (P := fun t => t.sp = s.sp) h (State.raise_sp · s) fun n hrec => ?_
    rcases hform with ⟨w, rfl⟩ | ⟨w, rfl⟩ | ⟨w, rfl⟩ | ⟨v, rfl⟩ <;> cases hrec <;> rfl
  case others =>
    rcases hform with ⟨w, rfl⟩ | ⟨w, rfl⟩ | ⟨w, rfl⟩ | ⟨v, rfl⟩ | ⟨w, rfl⟩ | rfl | ⟨p, rfl⟩
    case inr.inr.inr.inr.inr.inr =>
      exact ⟨exec_cfg h, exec_fault_eq_or_refused (record_pop p s) h, exec_cell_of_no_store h (by cases p <;> rfl)⟩
    all_goals exact ⟨exec_cfg h, exec_fault_eq_or_refused rfl h, exec_cell_of_no_store h rfl⟩

end Sys2Proof.Machine
end

section
/-! What no instruction reads: the tick counter (10_state.md R36), and F apart from PUSH AF (R23). A change of such a field commutes
with an instruction. -/

namespace Sys2Proof.Machine

/-- A change of the state that the instruction's effect, the post-effects, the PC advance and the ticks each commute with commutes with
the completed instruction. -/
theorem complete_commutes {φ : State → State} {n : Instruction} {s : State}
    (heffect : perform n.effect (φ s) = φ (perform n.effect s)) (hpost : ∀ p u, runPost p (φ u) = φ (runPost p u))
    (hpc : ∀ u, (φ u).advancePc n.length = φ (u.advancePc n.length)) (htick : ∀ u, (φ u).tick n.cycles = φ (u.tick n.cycles)) :
    complete n (φ s) = φ (complete n s) := by
  have hposts : ∀ ps u, runPosts ps (φ u) = φ (runPosts ps u) := by
    intro ps
    induction ps with
    | nil => exact fun u => rfl
    | cons p ps ih => exact fun u => by rw [runPosts, hpost, ih, runPosts]
  rw [complete, heffect, hposts, hpc, htick, complete]

/-- A change of the state that keeps the instruction's record and the refusal of its accesses, and commutes with its completion,
commutes with the instruction. -/
theorem exec_commutes {φ : State → State} {i : Instr} {s t : State} {n : Instruction} (hrec : record i s = some n)
    (hrec' : record i (φ s) = some n) (hdata : refusedData n.effect (φ s) = refusedData n.effect s)
    (hraise : ∀ r, (φ s).raise r = φ (s.raise r))
    (hdone : refusedData n.effect s = none → complete n (φ s) = φ (complete n s)) (h : exec i s = .next t) :
    exec i (φ s) = .next (φ t) := by
  rw [exec_eq_execute hrec] at h
  rw [exec_eq_execute hrec', execute, hdata]
  rcases execute_cases n s with ⟨r, hrefused, hx⟩ | ⟨hnone, hx⟩ <;> cases hx.symm.trans h
  · rw [hrefused, ← hraise]
  · rw [hnone, ← hdone hnone]

/-- `s` with more ticks on `clk`. -/
def State.addTicks (k : Nat) (s : State) : State := { s with clk := s.clk + k }

theorem record_addTicks (i : Instr) (k : Nat) (s : State) : record i (s.addTicks k) = record i s := by
  cases i <;> rfl

theorem read8_addTicks (loc : Loc8) (k : Nat) (s : State) : read8 loc (s.addTicks k) = read8 loc s := by
  cases loc with
  | reg r => cases r <;> rfl
  | _ => rfl

theorem write8_addTicks (loc : Loc8) (v : Byte) (k : Nat) (s : State) :
    write8 loc v (s.addTicks k) = (write8 loc v s).addTicks k := by
  cases loc with
  | reg r => cases r <;> rfl
  | _ => rfl

theorem read16_addTicks (loc : Loc16) (k : Nat) (s : State) : read16 loc (s.addTicks k) = read16 loc s := by
  cases loc with
  | pair p => cases p <;> rfl
  | _ => rfl

theorem write16_addTicks (loc : Loc16) (w : Word) (k : Nat) (s : State) :
    write16 loc w (s.addTicks k) = (write16 loc w s).addTicks k := by
  cases loc with
  | pair p => cases p <;> rfl
  | _ => rfl

theorem perform_addTicks (e : Effect) (k : Nat) (s : State) : perform e (s.addTicks k) = (perform e s).addTicks k := by
  cases e with
  | loadByte src dst => rw [perform, read8_addTicks, write8_addTicks, perform]
  | loadWord src dst => rw [perform, read16_addTicks, write16_addTicks, perform]
  | push src => rw [perform, read16_addTicks]; rfl
  | pop dst => rw [perform, write16_addTicks]; rfl

theorem refusedData_addTicks (e : Effect) (k : Nat) (s : State) : refusedData e (s.addTicks k) = refusedData e s := by
  cases e <;> rfl

theorem tick_addTicks (n k : Nat) (s : State) : (s.addTicks k).tick n = (s.tick n).addTicks k := by
  have hclk : s.clk + k + n + s.cfg.tickBias.val = s.clk + n + s.cfg.tickBias.val + k := by omega
  rw [State.tick, State.addTicks, State.addTicks, State.tick, hclk]

/-- No instruction reads `clk` (R36). -/
theorem exec_addTicks {i : Instr} {s t : State} (k : Nat) (h : exec i s = .next t) :
    exec i (s.addTicks k) = .next (t.addTicks k) := by
  rcases exec_cases i s with ⟨n, hrec, _⟩ | ⟨op, rfl, hx⟩
  · refine exec_commutes (φ := State.addTicks k) hrec ((record_addTicks i k s).trans hrec) (refusedData_addTicks _ k s)
      (fun _ => rfl) (fun _ => ?_) h
    exact complete_commutes (perform_addTicks _ k s) (fun p _ => by cases p <;> rfl) (fun _ => rfl) (tick_addTicks _ k)
  · cases hx.symm.trans h
    rfl

/-- Settles O47: the fetch reads memory, PC and the parameters alone, and the instruction it gives commutes with the ticks
(`exec_addTicks`). -/
theorem clockIsReadByNoInstruction : Obligations.ClockIsReadByNoInstruction := by
  intro s t k hstep
  obtain ⟨hrun, ⟨r, hd, rfl⟩ | ⟨i, hd, hexec⟩⟩ := step_cases hstep
  · exact step_of_error (s := s.addTicks k) hrun hd
  · exact (step_of_ok (s := s.addTicks k) hrun hd).trans (exec_addTicks k hexec)

/-- The effect of any instruction but POP AF leaves F (R23). -/
theorem record_f {i : Instr} {s : State} {n : Instruction} (hpop : i ≠ .popAf) (h : record i s = some n) :
    (perform n.effect s).f = s.f := by
  cases i with
  | popAf => exact absurd rfl hpop
  | unimplemented _ => cases h
  | _ => cases h; rfl

theorem record_setFByte (i : Instr) (v : Byte) (s : State) : record i (s.setFByte v) = record i s := by
  cases i <;> rfl

theorem refusedData_setFByte (e : Effect) (v : Byte) (s : State) : refusedData e (s.setFByte v) = refusedData e s := by
  cases e <;> rfl

/-- The effect of any instruction but PUSH AF and POP AF neither reads nor writes F (R23). -/
theorem perform_setFByte {i : Instr} {s : State} {n : Instruction} (hpush : i ≠ .pushAf) (hpop : i ≠ .popAf)
    (h : record i s = some n) (v : Byte) : perform n.effect (s.setFByte v) = (perform n.effect s).setFByte v := by
  cases i with
  | pushAf => exact absurd rfl hpush
  | popAf => exact absurd rfl hpop
  | unimplemented _ => cases h
  | _ => cases h; rfl

/-- Any instruction but PUSH AF and POP AF does the same whatever F holds, and leaves it (R23). -/
theorem exec_setFByte {i : Instr} {s t : State} (v : Byte) (hpush : i ≠ .pushAf) (hpop : i ≠ .popAf) (h : exec i s = .next t) :
    exec i (s.setFByte v) = .next (t.setFByte v) := by
  rcases exec_cases i s with ⟨n, hrec, _⟩ | ⟨op, rfl, hx⟩
  · refine exec_commutes (φ := State.setFByte v) hrec ((record_setFByte i v s).trans hrec) (refusedData_setFByte _ v s)
      (fun _ => rfl) (fun _ => ?_) h
    exact complete_commutes (perform_setFByte hpush hpop hrec v) (fun p _ => by cases p <;> rfl) (fun _ => rfl) (fun _ => rfl)
  · cases hx.symm.trans h
    rfl

/-- A POP whose data reads pass is one that the policy admits both cells of (R318). -/
theorem canRead_of_pop_not_refused {s : State} {dst : Loc16} (h : refusedData (.pop dst) s = none) :
    s.CanRead [s.sp, s.sp + 1] := by
  rw [refusedData] at h
  split at h
  · cases h
  · rename_i hreads
    exact canRead_iff.mpr (firstRefused_none.mp hreads)

/-- Settles O48: every effect but POP AF's leaves F (`record_f`), and every one but PUSH AF's and POP AF's commutes with a change of F
(`exec_setFByte`). A POP AF that completes overwrites F with the byte it reads (`exec_pop`); a refused one is the fault entry. -/
theorem fIsReadByPushAfAndWrittenByPopAfOnly : Obligations.FIsReadByPushAfAndWrittenByPopAfOnly := by
  refine ⟨fun i s t hpop h => ?writes, fun i s t v hpush hpop h => exec_setFByte v hpush hpop h, fun s t v h hread => ?popCompletes,
    fun s t v h hrefused => ?popRefused⟩
  case writes =>
    exact exec_induction (P := fun t => t.f = s.f) h (State.raise_f · s) fun n hrec =>
      (complete_f n s).trans (record_f hpop hrec)
  case popCompletes =>
    have hpop : exec .popAf s = .next (s.popped .af) := exec_pop (p := .af) hread
    have hpop' : exec .popAf (s.setFByte v) = .next ((s.setFByte v).popped .af) := exec_pop (p := .af) hread
    cases hpop.symm.trans h
    exact hpop'
  case popRefused =>
    exact exec_commutes (φ := State.setFByte v) rfl rfl rfl (fun _ => rfl)
      (fun hnone => absurd (canRead_of_pop_not_refused hnone) hrefused) h

end Sys2Proof.Machine
end
